-- ==== Sys2Proof/Word.lean ====
section
/-!
DEFINITION. The word types of JFXR-CORE: bytes, 64-bit register words, and the two IEEE 754 formats as raw bit
patterns (R63, R69, R71). The arithmetic over them is in `Sys2Proof/Machine/Float.lean`.
-/

namespace Sys2Proof

/-- One byte of the host aperture (R48). -/
abbrev Byte := BitVec 8

/-- A 64-bit register word (R24, R63). -/
abbrev Word := BitVec 64

/-- A binary64 value as its bit pattern: sign 63, biased exponent [62:52], fraction [51:0] (R69). -/
abbrev F64 := BitVec 64

/-- A binary32 value as its bit pattern: sign 31, biased exponent [30:23], fraction [22:0] (R71). -/
abbrev F32 := BitVec 32

end Sys2Proof
end

