-- ==== Sys2Proof/Config.lean ====
section
/-!
DEFINITION. What one instance of the block fixes (the parameters of R6 that have a default, held in the state's
`inst` field), and the free values: the parameters R6 leaves OPEN and the values the spec calls "any value". A free
value has no body, so nothing can be proved of it beyond what the spec says of it.
-/

namespace Sys2Proof.Config

/-- PHASE_ORDER (R6, R131): whether the oscillator reads the phase before or after the sample's advance. -/
inductive PhaseOrder where
  | sourceThenAdvance
  | advanceThenSource
  deriving DecidableEq, Repr

/-- PINK_B5_SIGN (R6, R110): the sign of the white term of the sixth pink tap. -/
inductive PinkSign where
  | minus
  | plus
  deriving DecidableEq, Repr

/-- The parameters of one instance that are not OPEN (R6), and the platform's BASE (R46). No step changes them. -/
structure Params where
  /-- MAX_SAMPLES, the capacity of the sample buffer (R6, R33). -/
  maxSamples : Nat
  /-- MAX_HARMONICS, the largest accepted `harmonics` (R6, R33). -/
  maxHarmonics : Nat
  /-- PHASE_ORDER (R6, R131). -/
  phaseOrder : PhaseOrder
  /-- PINK_B5_SIGN (R6, R110). -/
  pinkB5Sign : PinkSign
  /-- BASE, where the platform places the aperture (R46). -/
  base : Nat
  deriving DecidableEq, Repr

/-- The bounds the spec puts on the parameters: R6 on MAX_SAMPLES, R70 on MAX_HARMONICS, R46 on BASE. -/
def Params.legal (c : Params) : Bool :=
  decide (1 ≤ c.maxSamples) && decide (c.maxSamples ≤ 2 ^ 32) && decide (c.maxHarmonics ≤ 2 ^ 53) &&
    decide (c.base % 4096 = 0)

/-- The values R6 gives by default. BASE has no default: 0 is this model's (DESIGN CHOICE, unsafe, log entry 3). -/
def defaults : Params where
  maxSamples := 1048576
  maxHarmonics := 255
  phaseOrder := .sourceThenAdvance
  pinkB5Sign := .minus
  base := 0

/-- NUMERICS.sin (R10), OPEN: a total function of its operand alone (log entry 4). -/
opaque sin : F64 → F64
/-- NUMERICS.cos (R10), OPEN (log entry 4). -/
opaque cos : F64 → F64
/-- NUMERICS.tan (R10), OPEN (log entry 4). -/
opaque tan : F64 → F64
/-- NUMERICS.pow (R10), OPEN (log entry 4). -/
opaque pow : F64 → F64 → F64

/-- The raw words behind PRNG_STREAM (R16), OPEN. `prngStream` in `Machine/Operands.lean` keeps only the values of
[-1, 1], which is all the spec says of the stream (log entry 5). -/
opaque prngWord : Nat → F64

/-- RENDER_CYCLES_FN (R6, R97, R170), OPEN: any u64, a fresh one for each render (log entry 6). -/
opaque renderCyclesFn : Nat → Word

/-- What a sample-window read returns while BUSY (R52, R184): any 32-bit word. Its operands are the number of the
render, the stage and sample index the engine is at, and the entry read, so that it may change with every engine
step, and two reads with no engine step between them agree, as R50 says (log entry 7). -/
opaque busyWindowWord : Nat → BitVec 4 → Word → Nat → F32

/-- The sign and payload of a NaN that a binary64 operation produces are any value (R8): the operation's number and
its operands' patterns (log entry 8). -/
opaque nanWord64 : Nat → F64 → F64 → F64

/-- The sign and payload of the NaN that `f32` gives for a NaN operand are any value (R8, R11; log entry 8). -/
opaque nanWord32 : F64 → F32

/-- `int(v)` where v is not an integer of [0, 2^64): R11 gives no value (log entry 9). -/
opaque intOpen : F64 → Word

end Sys2Proof.Config
end

