-- ==== Sys2Proof/Syntax.lean ====
section
/-!
DEFINITION. The operations of `spec/opcode_table.json`, one constructor per row (R78), and the encoded words of its
four formats (R63).
-/

namespace Sys2Proof

/-- One constructor per row of the operation table. The BUS rows carry the transaction's byte offset in the aperture
(an unsigned integer, R45) and, for a write, its data; no other row has an operand (R64, R75). -/
inductive Instr where
  -- CMD rows: the command words (R65)
  | nop
  | reset
  | start
  -- WAVEFORM rows: the source operations (R66)
  | srcSine
  | srcTriangle
  | srcSawtooth
  | srcSquare
  | srcTangent
  | srcWhistle
  | srcBreaker
  | srcWhitenoise
  | srcPinknoise
  | srcBrownnoise
  -- STAGE rows: the sequencer's stages (R68)
  | idle
  | validate
  | normalize
  | init
  | source
  | freq
  | tremolo
  | lpf
  | hpf
  | envelope
  | compress
  | storePeak
  | scale
  -- BUS rows: the host's transactions (R72)
  | rd32 (addr : Nat)
  | wr32 (addr : Nat) (v : BitVec 32)
  | rd64 (addr : Nat)
  | wr64 (addr : Nat) (v : Word)
  deriving DecidableEq, Repr

/-- An operation as its encoded word, in one of the four formats of R63: a 64-bit command word, the 64-bit waveform
tag, the 4-bit stage code, or the 2-bit transaction descriptor with the transaction's offset and 64 data lanes. -/
inductive Encoded where
  | cmd (word : Word)
  | waveform (tag : Word)
  | stage (code : BitVec 4)
  | bus (desc : BitVec 2) (addr : Nat) (data : Word)
  deriving DecidableEq, Repr

end Sys2Proof
end

