-- ==== Sys2Proof/WellFormed.lean ====
section
/-!
DEFINITION. When an instruction is well formed: the offset of a BUS transaction lies in the aperture of some instance
of the block (R45, R46, with R6's bound on MAX_SAMPLES). A misaligned or reserved offset is well formed: it has an
effect (R53).
-/

namespace Sys2Proof

/-- The aperture's size in bytes for a buffer of `maxSamples` entries (R46). -/
def apertureBytes (maxSamples : Nat) : Nat := 0x1000 + 4 * maxSamples

/-- The largest aperture R6 allows: MAX_SAMPLES = 2^32. -/
def maxApertureBytes : Nat := apertureBytes (2 ^ 32)

/-- An offset that an aperture can hold (R45). -/
def offsetOk (addr : Nat) : Bool := decide (addr < maxApertureBytes)

/-- Well-formed instructions. -/
def Instr.wellFormed : Instr → Bool
  | .rd32 a => offsetOk a
  | .wr32 a _ => offsetOk a
  | .rd64 a => offsetOk a
  | .wr64 a _ => offsetOk a
  | .nop | .reset | .start => true
  | .srcSine | .srcTriangle | .srcSawtooth | .srcSquare | .srcTangent | .srcWhistle | .srcBreaker => true
  | .srcWhitenoise | .srcPinknoise | .srcBrownnoise => true
  | .idle | .validate | .normalize | .init | .source | .freq | .tremolo | .lpf | .hpf | .envelope | .compress => true
  | .storePeak | .scale => true

end Sys2Proof
end

