-- ==== Sys2Proof/Decode.lean ====
section
/-!
DEFINITION. The decoder of each format (R65, R66, R68, R72, R78), total and rejecting by name, and after it the
encoder written from the same tables.
-/

namespace Sys2Proof

/-- Why a word is no operation. -/
inductive DecodeError where
  /-- A CMD word other than 0x0, 0x1 and 0x2 (R65, R73). -/
  | illegalCommand
  /-- A waveform tag of 10 or more (R66). -/
  | unknownWaveform
  /-- A stage code 0xD to 0xF (R68). -/
  | reservedStage
  deriving DecidableEq, Repr

/-- The command word: the whole 64 bits must match, so a nonzero MBZ field is illegal (R64, R65). -/
def decodeCmd (w : Word) : Except DecodeError Instr :=
  match w.toNat with
  | 0 => .ok .nop
  | 1 => .ok .reset
  | 2 => .ok .start
  | _ => .error .illegalCommand

/-- The waveform tag, in the source's order (R66). -/
def decodeWaveform (tag : Word) : Except DecodeError Instr :=
  match tag.toNat with
  | 0 => .ok .srcSine
  | 1 => .ok .srcTriangle
  | 2 => .ok .srcSawtooth
  | 3 => .ok .srcSquare
  | 4 => .ok .srcTangent
  | 5 => .ok .srcWhistle
  | 6 => .ok .srcBreaker
  | 7 => .ok .srcWhitenoise
  | 8 => .ok .srcPinknoise
  | 9 => .ok .srcBrownnoise
  | _ => .error .unknownWaveform

/-- The 4-bit stage code (R68). -/
def decodeStage (code : BitVec 4) : Except DecodeError Instr :=
  match code.toNat with
  | 0 => .ok .idle
  | 1 => .ok .validate
  | 2 => .ok .normalize
  | 3 => .ok .init
  | 4 => .ok .source
  | 5 => .ok .freq
  | 6 => .ok .tremolo
  | 7 => .ok .lpf
  | 8 => .ok .hpf
  | 9 => .ok .envelope
  | 10 => .ok .compress
  | 11 => .ok .storePeak
  | 12 => .ok .scale
  | _ => .error .reservedStage

/-- The transaction descriptor: bit 0 is WRITE, bit 1 is SIZE64 (R72). A 4-byte write carries its data in the low
four byte lanes (R48). -/
def decodeBus (desc : BitVec 2) (addr : Nat) (data : Word) : Instr :=
  match desc.getLsbD 1, desc.getLsbD 0 with
  | false, false => .rd32 addr
  | false, true => .wr32 addr (data.setWidth 32)
  | true, false => .rd64 addr
  | true, true => .wr64 addr data

/-- The decoder: total on every word of every format (R78). -/
def decode : Encoded → Except DecodeError Instr
  | .cmd w => decodeCmd w
  | .waveform t => decodeWaveform t
  | .stage c => decodeStage c
  | .bus d a v => .ok (decodeBus d a v)

/-- The encoder: the word of each operation, from the tables of R65, R66, R68 and R72. -/
def encode : Instr → Encoded
  | .nop => .cmd 0x0
  | .reset => .cmd 0x1
  | .start => .cmd 0x2
  | .srcSine => .waveform 0
  | .srcTriangle => .waveform 1
  | .srcSawtooth => .waveform 2
  | .srcSquare => .waveform 3
  | .srcTangent => .waveform 4
  | .srcWhistle => .waveform 5
  | .srcBreaker => .waveform 6
  | .srcWhitenoise => .waveform 7
  | .srcPinknoise => .waveform 8
  | .srcBrownnoise => .waveform 9
  | .idle => .stage 0x0
  | .validate => .stage 0x1
  | .normalize => .stage 0x2
  | .init => .stage 0x3
  | .source => .stage 0x4
  | .freq => .stage 0x5
  | .tremolo => .stage 0x6
  | .lpf => .stage 0x7
  | .hpf => .stage 0x8
  | .envelope => .stage 0x9
  | .compress => .stage 0xA
  | .storePeak => .stage 0xB
  | .scale => .stage 0xC
  | .rd32 a => .bus 0b00 a 0
  | .wr32 a v => .bus 0b01 a (v.setWidth 64)
  | .rd64 a => .bus 0b10 a 0
  | .wr64 a v => .bus 0b11 a v

/-- The table's word `w` of `nbits` bits as an encoded word. The four formats of R63 have no common opcode space: the
same number is a word of two formats (0 is NOP and SRC_SINE, and IDLE and RD32). DESIGN CHOICE (log entry 10): 64 bits
are read as a WAVEFORM tag, 2 bits as a BUS descriptor at offset 0 with zero data, and other widths up to a byte as a
STAGE code. -/
def tableWord (nbits w : Nat) : Option Encoded :=
  if nbits = 64 then if w < 2 ^ 64 then some (.waveform (BitVec.ofNat 64 w)) else none
  else if nbits = 2 then if w < 4 then some (.bus (BitVec.ofNat 2 w) 0 0) else none
  else if nbits ≤ 8 then if w < 16 then some (.stage (BitVec.ofNat 4 w)) else none
  else none

/-- The instruction the decoder reads from a table word, for the host. -/
def decodeTableWord (nbits w : Nat) : Option Instr :=
  match tableWord nbits w with
  | none => none
  | some e =>
    match decode e with
    | .ok i => some i
    | .error _ => none

end Sys2Proof
end

