-- ==== Sys2Proof/Machine/State.lean ====
section
/-!
DEFINITION. The state of the machine: every element R19 lists, the parameters of the instance, and the model's own
side of the host (its pending transactions, the word its last read got, and the number of the render, which the free
values read). Every field is plain data.
-/

namespace Sys2Proof.Machine

/-- The sample buffer's bytes, keyed by their offset in the aperture (R47: SB[i] at 0x1000 + 4·i). -/
abbrev Memory := List Host.Cell

/-- A host transaction as the platform presents it: the descriptor (R72), the platform address of its first byte
(BASE plus the offset, R46) and its 64 data lanes. -/
structure BusRequest where
  desc : BitVec 2
  addr : Nat
  data : Word
  deriving DecidableEq, Repr

/-- Who moves next (R56): the engine, or the host with one transaction. -/
inductive Turn where
  | engine
  | host (r : BusRequest)
  deriving DecidableEq, Repr

/-- Why the machine stops with a fault. -/
inductive Fault where
  /-- Raised by RD32, WR32, RD64 and WR64, and by the fetch of a transaction: the address is outside the aperture,
  which the block does not decode (R47: "the platform's concern"). Safe. -/
  | outsideAperture
  /-- Raised by STORE_PEAK and SCALE: S.i is not below MAX_SAMPLES, so the entry does not exist (R42). R55 says the
  engine never does this; only states that no run reaches do. Safe. -/
  | noSuchEntry
  /-- Raised by SOURCE: P.waveform is above 9. R100 says such a tag never reaches this stage; only states that no run
  reaches do. Safe. -/
  | unknownWaveform
  deriving DecidableEq, Repr

/-- Why the machine refuses a step. -/
inductive Refusal where
  /-- Raised by `exec` for an instruction that has no meaning yet. Safe. -/
  | notModelled (mnemonic : String)
  /-- Raised by the fetch: S.stage holds a reserved code 0xD to 0xF, which R68 says it never holds. Safe. -/
  | reservedStage
  deriving DecidableEq, Repr

/-- The state. ID and PRNG_SEED are constants of the register read (`Machine/Ops.lean`); the CAPS registers are
`inst`; STATUS is its five flags with `stage`; SAMPLE_INDEX is `i`. -/
structure State where
  /-- MAX_SAMPLES and MAX_HARMONICS (the CAPS registers, R33), PHASE_ORDER, PINK_B5_SIGN (R6) and BASE (R46). -/
  inst : Config.Params
  /-- STATUS.BUSY, bit 0 (R23). -/
  busy : Bool
  /-- STATUS.DONE, bit 1 (R23). -/
  done : Bool
  /-- STATUS.ERROR, bit 2 (R23). -/
  error : Bool
  /-- STATUS.ACCESS_ERR, bit 3, sticky (R23). -/
  accessErr : Bool
  /-- STATUS.IGNORED, bit 4, sticky (R23). -/
  ignored : Bool
  /-- ERR_INFO (R25). -/
  errInfo : Word
  /-- The parameter register file P[0] to P[27] (R24). -/
  p : Vector Word 28
  /-- NUM_SAMPLES (R26). -/
  numSamples : Word
  /-- DURATION (R27). -/
  duration : F64
  /-- REPEAT_FREQ_EFF (R28). -/
  repeatFreqEff : F64
  /-- MAX_SAMPLE (R29). -/
  maxSample : F64
  /-- RENDER_CYCLES (R32). -/
  renderCycles : Word
  /-- S.phase (R34). -/
  phase : F64
  /-- S.pink[0] to S.pink[6] (R35). -/
  pink : Vector F64 7
  /-- S.brown (R36). -/
  brown : F64
  /-- S.draws (R36). -/
  draws : Word
  /-- S.lpf_y (R37). -/
  lpfY : F64
  /-- S.hpf_x (R38). -/
  hpfX : F64
  /-- S.hpf_y (R38). -/
  hpfY : F64
  /-- S.A0 (R39). -/
  a0 : F64
  /-- S.stage, shown as STATUS.STAGE, bits [11:8] (R40, R68). -/
  stage : BitVec 4
  /-- S.i, shown as SAMPLE_INDEX (R40, R31). -/
  i : Word
  /-- S.s, the sample on its way through the stages (R41). -/
  s : F64
  /-- S.f, the current frequency (R41). -/
  f : F64
  /-- The sample buffer SB (R42), as bytes. -/
  sb : Memory
  /-- The model's own: the turns still to come, in order; when there is none, every turn is the engine's. A claim for
  every state is a claim for every interleaving (R56). -/
  agenda : List Turn
  /-- The model's own: the word the bus returned to the host's last read (R50). -/
  hostData : Word
  /-- The model's own: how many renders have been started since power-on. The free values of a render read it. -/
  renders : Nat
  deriving DecidableEq, Repr

/-- Power-on of an instance (R177, R178). The buffer lists nothing (its contents are unspecified: log entry 1). -/
def State.powerOn (c : Config.Params) : State where
  inst := c
  busy := false
  done := false
  error := false
  accessErr := false
  ignored := false
  errInfo := 0x000000000000FF00#64
  p := Vector.replicate 28 0
  numSamples := 0
  duration := 0
  repeatFreqEff := 0
  maxSample := 0
  renderCycles := 0
  phase := 0
  pink := Vector.replicate 7 0
  brown := 0
  draws := 0
  lpfY := 0
  hpfX := 0
  hpfY := 0
  a0 := 0
  stage := 0
  i := 0
  s := 0
  f := 0
  sb := []
  agenda := []
  hostData := 0
  renders := 0

/-- The machine right after reset, with the parameters' default values (R6, R178). -/
def State.reset : State := State.powerOn Config.defaults

end Sys2Proof.Machine
end

