-- ==== Sys2Proof/Machine/Flags.lean ====
section
/-!
DEFINITION. The STATUS word and its flags (R23, R43), the stage codes (R68) and the error codes (R158).
-/

namespace Sys2Proof.Machine

/-- The stage codes of R68. -/
abbrev stIdle : BitVec 4 := 0x0
abbrev stValidate : BitVec 4 := 0x1
abbrev stNormalize : BitVec 4 := 0x2
abbrev stInit : BitVec 4 := 0x3
abbrev stSource : BitVec 4 := 0x4
abbrev stFreq : BitVec 4 := 0x5
abbrev stTremolo : BitVec 4 := 0x6
abbrev stLpf : BitVec 4 := 0x7
abbrev stHpf : BitVec 4 := 0x8
abbrev stEnvelope : BitVec 4 := 0x9
abbrev stCompress : BitVec 4 := 0xA
abbrev stStorePeak : BitVec 4 := 0xB
abbrev stScale : BitVec 4 := 0xC

/-- A flag as a bit of a word. -/
def flagBit (b : Bool) (pos : Nat) : Nat := if b then 2 ^ pos else 0

/-- The STATUS word: the flags in bits [4:0], S.stage in bits [11:8], and 0 in every reserved bit (R23). -/
def State.statusWord (s : State) : Word :=
  BitVec.ofNat 64
    (flagBit s.busy 0 + flagBit s.done 1 + flagBit s.error 2 + flagBit s.accessErr 3 + flagBit s.ignored 4 +
      s.stage.toNat * 2 ^ 8)

/-- STATUS.ACCESS_ERR <- 1 (R53). -/
def State.flagAccessErr (s : State) : State := { s with accessErr := true }

/-- STATUS.IGNORED <- 1 (R51, R80). -/
def State.flagIgnored (s : State) : State := { s with ignored := true }

/-- The error kinds a command can end in (R158), with their codes below. NONE (0) is what ERR_INFO holds when there
is no error, MALFORMED_INPUT (1) is never raised (R162), and the others are reserved. -/
inductive ErrorKind where
  | invalidParameter
  | illegalCommand
  deriving DecidableEq, Repr

/-- ERR_INFO.CODE (R158). -/
def ErrorKind.code : ErrorKind → Nat
  | .invalidParameter => 2
  | .illegalCommand => 3

/-- The composition `(param << 8) | code` of ERR_INFO (R159, R193). -/
def errInfoWord (k : ErrorKind) (param : Nat) : Word := BitVec.ofNat 64 (param <<< 8 ||| k.code)

end Sys2Proof.Machine
end

