-- ==== Sys2Proof/Machine/Float.lean ====
section
/-!
DEFINITION. The arithmetic of R8 and R11 to R15: IEEE 754 binary64 with roundTiesToEven, the two conversions to and
from binary32, and the utilities frac, clamp, sign and max. Every finite binary64 value is an integer multiple of
2^-1074; each operation is computed exactly in that unit and rounded once. The definitions that compute with such
numbers are irreducible, so that only the kernel evaluates them; `unfold` and `simp only` open them by name.
-/

namespace Sys2Proof.Machine

/-- 2^1074: how many units 2^-1074 make 1. -/
@[irreducible] def unitsPerOne : Nat := 2 ^ 1074

/-- 2^925: how many units 2^-1074 make binary32's smallest subnormal 2^-149. -/
@[irreducible] def unitsPerF32 : Nat := 2 ^ 925

/-- +Infinity's pattern. -/
def f64Inf : F64 := 0x7FF0000000000000#64

/-- Bits [62:52] (R69). -/
def f64Exp (x : F64) : Nat := x.toNat / 2 ^ 52 % 2 ^ 11

/-- Bits [51:0] (R69). -/
def f64Frac (x : F64) : Nat := x.toNat % 2 ^ 52

/-- The sign bit (R69). -/
def fsign (x : F64) : Bool := x.getLsbD 63

/-- x is a NaN. -/
def fisNaN (x : F64) : Bool := f64Exp x == 2047 && f64Frac x != 0

/-- x is +Infinity or -Infinity. -/
def fisInf (x : F64) : Bool := f64Exp x == 2047 && f64Frac x == 0

/-- `finite(x)` of R86: neither a NaN nor an infinity. -/
def ffinite (x : F64) : Bool := f64Exp x != 2047

/-- The magnitude of a finite x in units of 2^-1074. -/
@[irreducible] def fmag (x : F64) : Nat :=
  if f64Exp x = 0 then f64Frac x else (2 ^ 52 + f64Frac x) * 2 ^ (f64Exp x - 1)

/-- A finite x in units of 2^-1074, with its sign. -/
def fscaled (x : F64) : Int := if fsign x then -(fmag x : Int) else fmag x

/-- n / d to the nearest integer, a tie to the even one. -/
def roundNearestEven (n d : Nat) : Nat :=
  let q := n / d
  let r := n % d
  if 2 * r < d then q else if d < 2 * r then q + 1 else q + q % 2

/-- The magnitude bits of the binary float nearest n / d units, ties to even, where a unit is the format's smallest
subnormal, `p` its precision and `infBits` the magnitude bits of its infinity: a value too large is the infinity. -/
@[irreducible] def roundMag (p infBits n d : Nat) : Nat :=
  let k := Nat.log2 (n / d) + 1 - p
  let bits := k * 2 ^ (p - 1) + roundNearestEven n (d * 2 ^ k)
  if infBits ≤ bits then infBits else bits

/-- The binary64 value with the given sign nearest n / d units of 2^-1074. -/
@[irreducible] def f64OfRatio (neg : Bool) (n d : Nat) : F64 :=
  BitVec.ofNat 64 ((if neg then 2 ^ 63 else 0) + roundMag 53 (2047 * 2 ^ 52) n d)

/-- Any NaN pattern, chosen by the free word `w`: its sign and fraction, a zero fraction read as 1. -/
def f64NaNOf (w : F64) : F64 :=
  if f64Frac w = 0 then w ||| 0x7FF0000000000001#64 else w ||| 0x7FF0000000000000#64

/-- The NaN that operation `op` produces for operands a and b: any NaN (R8). -/
def fnan (op : Nat) (a b : F64) : F64 := f64NaNOf (Config.nanWord64 op a b)

/-- -x: the sign bit flipped. -/
def fneg (x : F64) : F64 := x ^^^ 0x8000000000000000#64

/-- `abs(x)`: the sign bit cleared (R8). -/
def fabs (x : F64) : F64 := x &&& 0x7FFFFFFFFFFFFFFF#64

/-- An infinity with the given sign. -/
def finfOf (neg : Bool) : F64 := if neg then fneg f64Inf else f64Inf

/-- a + b (R8). An exact zero sum of values that are not both negative is +0. -/
def fadd (a b : F64) : F64 :=
  if fisNaN a || fisNaN b then fnan 0 a b
  else if fisInf a then (if fisInf b && fsign a != fsign b then fnan 0 a b else a)
  else if fisInf b then b
  else
    let n := fscaled a + fscaled b
    if n = 0 then f64OfRatio (fsign a && fsign b) 0 1
    else f64OfRatio (decide (n < 0)) n.natAbs 1

/-- a - b (R8). -/
def fsub (a b : F64) : F64 := fadd a (fneg b)

/-- a * b (R8). -/
def fmul (a b : F64) : F64 :=
  let neg := fsign a != fsign b
  if fisNaN a || fisNaN b then fnan 1 a b
  else if fisInf a || fisInf b then
    (if fmag a = 0 || fmag b = 0 then fnan 1 a b else finfOf neg)
  else f64OfRatio neg (fmag a * fmag b) unitsPerOne

/-- a / b (R8). -/
def fdiv (a b : F64) : F64 :=
  let neg := fsign a != fsign b
  if fisNaN a || fisNaN b then fnan 2 a b
  else if fisInf a then (if fisInf b then fnan 2 a b else finfOf neg)
  else if fisInf b then f64OfRatio neg 0 1
  else if fmag b = 0 then (if fmag a = 0 then fnan 2 a b else finfOf neg)
  else f64OfRatio neg (fmag a * unitsPerOne) (fmag b)

/-- The integer square root of n, for n < 4^fuel. -/
def isqrt : Nat → Nat → Nat
  | 0, _ => 0
  | fuel + 1, n =>
    let r := 2 * isqrt fuel (n / 4)
    if (r + 1) * (r + 1) ≤ n then r + 1 else r

/-- The correctly rounded square root (R8). The root of the magnitude is taken to the unit below, with half a unit
added when it is not exact, which rounds as the exact root does. -/
def fsqrt (x : F64) : F64 :=
  if fisNaN x then fnan 3 x x
  else if fmag x = 0 then x
  else if fsign x then fnan 3 x x
  else if fisInf x then x
  else
    let n := fmag x * unitsPerOne
    let r := isqrt (Nat.log2 n / 2 + 1) n
    f64OfRatio false (2 * r + if r * r = n then 0 else 1) 2

/-- `floor(x)`: IEEE roundToIntegralTowardNegative (R8). -/
def ffloor (x : F64) : F64 :=
  if fisNaN x then fnan 4 x x
  else if fisInf x then x
  else f64OfRatio (fsign x) ((fscaled x / (unitsPerOne : Int)).natAbs * unitsPerOne) 1

/-- `ceil(x)`: IEEE roundToIntegralTowardPositive (R8). -/
def fceil (x : F64) : F64 :=
  if fisNaN x then fnan 5 x x
  else if fisInf x then x
  else f64OfRatio (fsign x) ((-(-(fscaled x) / (unitsPerOne : Int))).natAbs * unitsPerOne) 1

/-- The place of a value that is no NaN in the order of the reals with two infinities; both zeros are at 0. -/
def forder (x : F64) : Int :=
  if fsign x then -((x.toNat % 2 ^ 63 : Nat) : Int) else ((x.toNat % 2 ^ 63 : Nat) : Int)

/-- a < b, false when either is a NaN (R8). -/
def flt (a b : F64) : Bool := !fisNaN a && !fisNaN b && decide (forder a < forder b)

/-- a <= b, false when either is a NaN (R8). -/
def fle (a b : F64) : Bool := !fisNaN a && !fisNaN b && decide (forder a ≤ forder b)

/-- a = b, false when either is a NaN (R8). -/
def feq (a b : F64) : Bool := !fisNaN a && !fisNaN b && decide (forder a = forder b)

/-- `real(n)` (R11), exact for n up to 2^53. Above 2^53, where R11 says that no integer is converted, an integer that
binary64 does not hold is rounded with roundTiesToEven (DESIGN CHOICE, unsafe, log entry 24). -/
def freal (n : Nat) : F64 := f64OfRatio false (n * unitsPerOne) 1

/-- The decimal literal n / d of a rule: the binary64 value nearest to it (R12). -/
def flit (n d : Nat) : F64 := f64OfRatio false (n * unitsPerOne) d

/-- `int(v)` (R11): v's integer where v holds one of [0, 2^64), and otherwise the free value `Config.intOpen`. -/
def fint (v : F64) : Word :=
  if ffinite v && decide (fmag v % unitsPerOne = 0) && decide (fmag v / unitsPerOne < 2 ^ 64) &&
      (!fsign v || decide (fmag v = 0)) then
    BitVec.ofNat 64 (fmag v / unitsPerOne)
  else Config.intOpen v

/-- `f32(v)` (R11): roundTiesToEven, beyond the binary32 range an infinity, a NaN some NaN. -/
def f32OfF64 (v : F64) : F32 :=
  let neg := if fsign v then 2 ^ 31 else 0
  if fisNaN v then
    let w := Config.nanWord32 v
    if w.toNat % 2 ^ 23 = 0 then w ||| 0x7F800001#32 else w ||| 0x7F800000#32
  else if fisInf v then BitVec.ofNat 32 (neg + 255 * 2 ^ 23)
  else BitVec.ofNat 32 (neg + roundMag 24 (255 * 2 ^ 23) (fmag v) unitsPerF32)

/-- `f64(w)` (R11): the exact widening. With the exponent all ones (an infinity or a NaN) it keeps the sign and the
fraction's bits, which become the top bits of the wider fraction (log entry 8). -/
def f64OfF32 (w : F32) : F64 :=
  let neg := w.getLsbD 31
  let e := w.toNat / 2 ^ 23 % 2 ^ 8
  let frac := w.toNat % 2 ^ 23
  if e = 255 then BitVec.ofNat 64 ((if neg then 2 ^ 63 else 0) + 2047 * 2 ^ 52 + frac * 2 ^ 29)
  else f64OfRatio neg ((if e = 0 then frac else (2 ^ 23 + frac) * 2 ^ (e - 1)) * unitsPerF32) 1

/-- +0.0. -/
def fzero : F64 := 0

/-- PI, the binary64 value nearest π (R12). -/
def fPI : F64 := 0x400921FB54442D18#64

/-- sqrt(0.75), correctly rounded (R12). -/
def fSqrt075 : F64 := 0x3FEBB67AE8584CAA#64

/-- `2π` of a formula is 2 * PI (R12). -/
def fTwoPi : F64 := fmul (freal 2) fPI

/-- `40π` of a formula is 40 * PI, rounded once (R12). -/
def f40Pi : F64 := fmul (freal 40) fPI

/-- `frac(x)` = x - floor(x) (R13). -/
def ffrac (x : F64) : F64 := fsub x (ffloor x)

/-- `clamp(lo, hi, x)`: a NaN passes through (R14). -/
def fclamp (lo hi x : F64) : F64 := if flt x lo then lo else if flt hi x then hi else x

/-- `sign(x)` (R15). -/
def fsgn (x : F64) : F64 :=
  if flt fzero x then freal 1 else if flt x fzero then fneg (freal 1) else fzero

/-- `max(a, b)` = if b > a then b else a (R15). -/
def fmax (a b : F64) : F64 := if flt a b then b else a

end Sys2Proof.Machine
end

