-- ==== Sys2Proof/Machine/Operands.lean ====
section
/-!
DEFINITION. What the stages read: the named parameter registers (R24), the per-sample quantities time and fraction
(R93), the harmonic sum and the harmonic phases (R115, R116), the duty cycle (R121), the cutoffs (R135), and the noise
draw (R16).
-/

namespace Sys2Proof.Machine

/-- P[k] (R24), for an index computed from an address; 0 beyond the file, which no rule reads. -/
def State.param (s : State) (k : Nat) : Word := (s.p[k]?).getD 0

def State.pSampleRate (s : State) : F64 := s.p[0]
def State.pAttack (s : State) : F64 := s.p[1]
def State.pSustain (s : State) : F64 := s.p[2]
def State.pDecay (s : State) : F64 := s.p[3]
def State.pTremoloDepth (s : State) : F64 := s.p[4]
def State.pTremoloFrequency (s : State) : F64 := s.p[5]
def State.pVibratoDepth (s : State) : F64 := s.p[6]
def State.pVibratoFrequency (s : State) : F64 := s.p[7]
def State.pFrequency (s : State) : F64 := s.p[8]
def State.pFrequencySweep (s : State) : F64 := s.p[9]
def State.pFrequencyDeltaSweep (s : State) : F64 := s.p[10]
def State.pRepeatFrequency (s : State) : F64 := s.p[11]
def State.pFrequencyJump1Onset (s : State) : F64 := s.p[12]
def State.pFrequencyJump2Onset (s : State) : F64 := s.p[13]
def State.pFrequencyJump1Amount (s : State) : F64 := s.p[14]
def State.pFrequencyJump2Amount (s : State) : F64 := s.p[15]
def State.pHarmonics (s : State) : Word := s.p[16]
def State.pHarmonicsFalloff (s : State) : F64 := s.p[17]
def State.pWaveform (s : State) : Word := s.p[18]
def State.pSquareDuty (s : State) : F64 := s.p[19]
def State.pSquareDutySweep (s : State) : F64 := s.p[20]
def State.pLowPassCutoff (s : State) : F64 := s.p[21]
def State.pLowPassCutoffSweep (s : State) : F64 := s.p[22]
def State.pHighPassCutoff (s : State) : F64 := s.p[23]
def State.pHighPassCutoffSweep (s : State) : F64 := s.p[24]
def State.pCompression (s : State) : F64 := s.p[25]
def State.pNormalization (s : State) : Word := s.p[26]
def State.pAmplification (s : State) : F64 := s.p[27]

/-- P.waveform names an oscillator, tags 0 to 6 (R66, R86). -/
def State.isOscillator (s : State) : Bool := decide (s.pWaveform.toNat ≤ 6)

/-- time(S.i) (R93). -/
def State.time (s : State) : F64 := fdiv (freal s.i.toNat) s.pSampleRate

/-- fraction(S.i) (R93). -/
def State.fraction (s : State) : F64 := fdiv (freal s.i.toNat) (freal s.numSamples.toNat)

/-- The rest of HarmonicSum's loop: `n` terms to go, the sum so far and the next term (R115). -/
def harmonicSumFrom (r : F64) : Nat → F64 → F64 → F64
  | 0, sig, _ => sig
  | n + 1, sig, t => harmonicSumFrom r n (fadd sig t) (fmul t r)

/-- HarmonicSum(H, r), by repeated multiplication in ascending k; 0^0 is 1 (R115). -/
def harmonicSum (h : Nat) (r : F64) : F64 := harmonicSumFrom r (h + 1) fzero (freal 1)

/-- HarmonicSum(P.harmonics, P.harmonicsFalloff). -/
def State.harmonicDenominator (s : State) : F64 := harmonicSum s.pHarmonics.toNat s.pHarmonicsFalloff

/-- HarmonicPhase(h) = frac(S.phase * real(h + 1)) (R116). -/
def harmonicPhase (phase : F64) (h : Nat) : F64 := ffrac (fmul phase (freal (h + 1)))

/-- The rest of OscSum's loop: `n` terms to go, the harmonic `h`, the sum and the amplitude so far (R114). -/
def oscSumFrom (shape : F64 → F64) (phase falloff : F64) : Nat → Nat → F64 → F64 → F64
  | 0, _, acc, _ => acc
  | n + 1, h, acc, a =>
    oscSumFrom shape phase falloff n (h + 1) (fadd acc (fmul a (shape (harmonicPhase phase h)))) (fmul a falloff)

/-- OscSum(shape): the weighted sum over harmonics 0 to P.harmonics, in ascending h (R114). -/
def State.oscSum (s : State) (shape : F64 → F64) : F64 :=
  oscSumFrom shape s.phase s.pHarmonicsFalloff (s.pHarmonics.toNat + 1) 0 fzero s.a0

/-- Duty(S.i) (R121). -/
def State.duty (s : State) : F64 := fdiv (fadd s.pSquareDuty (fmul s.fraction s.pSquareDutySweep)) (freal 100)

/-- Wc(b, w): the clamped cutoff as a normalized angular frequency (R135). -/
def State.wc (s : State) (b w : F64) : F64 :=
  fmul (fdiv (fclamp fzero (fdiv s.pSampleRate (freal 2)) (fadd b (fmul s.fraction w))) s.pSampleRate) fPI

/-- The count of R90 and R91 before its maximum with 1: ceil(sampleRate * ((attack + sustain) + decay)). -/
def State.rawCount (s : State) : F64 :=
  fceil (fmul s.pSampleRate (fadd (fadd s.pAttack s.pSustain) s.pDecay))

/-- PRNG_STREAM[n] (R16): a free value, in the closed interval [-1, 1] as R16 says. -/
def prngStream (n : Nat) : F64 :=
  let w := Config.prngWord n
  if fle (fneg (freal 1)) w && fle w (freal 1) then w else fzero

/-- `draw()` (R16): the next value of the stream, and the state with S.draws moved on. -/
def State.draw (s : State) : F64 × State := (prngStream s.draws.toNat, { s with draws := s.draws + 1 })

/-- The factor PINK_B5_SIGN of R109. -/
def pinkSignFactor : Config.PinkSign → F64
  | .minus => fneg (freal 1)
  | .plus => freal 1

end Sys2Proof.Machine
end

