-- ==== Sys2Proof/Machine/Ops.lean ====
section
/-!
DEFINITION. The shared operations: the sample buffer as bytes in canonical form, the block's only trap entry `raise`
(R159) with what ends it, reset (R177), the sequencer's next stage (R95, R96), the end of a render (R97), and the host
access primitives (R50 to R53).
-/

namespace Sys2Proof.Machine

/-! ### The sample buffer (R42, R48, R55) -/

/-- What a byte that nothing has written reads as. The spec leaves the buffer's first contents open (R42, R178) and
allows any: 0 (DESIGN CHOICE, unsafe, log entry 1). -/
def Memory.unlisted : Byte := 0

/-- The byte at an address. -/
def Memory.read : Memory → Nat → Byte
  | [], _ => Memory.unlisted
  | (x, c) :: t, a => if x = a then c else Memory.read t a

/-- Write a byte, keeping the canonical form: a byte equal to what an unlisted address reads as is not listed. -/
def Memory.write (a : Nat) (b : Byte) : Memory → Memory
  | [] => if b = Memory.unlisted then [] else [(a, b)]
  | (x, c) :: t =>
    if a < x then (if b = Memory.unlisted then (x, c) :: t else (a, b) :: (x, c) :: t)
    else if a = x then (if b = Memory.unlisted then t else (a, b) :: t)
    else (x, c) :: Memory.write a b t

/-- The canonical form: addresses strictly rising, and no entry equal to what an unlisted address reads as. -/
def Memory.wf : Memory → Bool
  | [] => true
  | (x, c) :: t => decide (c ≠ Memory.unlisted) && t.all (fun e => decide (x < e.1)) && Memory.wf t

/-- Where SB[i] lies in the aperture (R47). -/
def entryAddr (i : Nat) : Nat := 0x1000 + 4 * i

/-- SB[i]: four bytes, little-endian (R48, R55). -/
def loadEntry (m : Memory) (i : Nat) : F32 :=
  m.read (entryAddr i + 3) ++ m.read (entryAddr i + 2) ++ m.read (entryAddr i + 1) ++ m.read (entryAddr i)

/-- SB[i] <- w: four bytes, little-endian (R48, R55). -/
def storeEntry (m : Memory) (i : Nat) (w : F32) : Memory :=
  Memory.write (entryAddr i + 3) (w.extractLsb' 24 8) <|
    Memory.write (entryAddr i + 2) (w.extractLsb' 16 8) <|
      Memory.write (entryAddr i + 1) (w.extractLsb' 8 8) <|
        Memory.write (entryAddr i) (w.extractLsb' 0 8) m

/-! ### The trap entry, and reset -/

/-- `raise E(param)`, the block's only trap entry (R159). There is no return from it: the host recovers by START or
RESET (R167). -/
def State.raise (s : State) (k : ErrorKind) (param : Nat) : State :=
  { s with errInfo := errInfoWord k param, error := true, done := false, busy := false, stage := stIdle }

/-- `Reset()` as CMD RESET applies it (R177, R178): every element of the block takes its reset value, but for the
buffer, which is unchanged. The instance's parameters and the host's side are no part of the block's reset. -/
def State.resetBlock (s : State) : State :=
  { State.powerOn s.inst with
    sb := s.sb, agenda := s.agenda, hostData := s.hostData, renders := s.renders }

/-! ### The sequencer -/

/-- `stage <- X` (R98). -/
def State.goto (s : State) (st : BitVec 4) : State := { s with stage := st }

/-- FirstStage (R95). -/
def firstStage : Config.PhaseOrder → BitVec 4
  | .sourceThenAdvance => stSource
  | .advanceThenSource => stFreq

/-- The stage after SOURCE in a pass-1 sample (R95). -/
def afterSource : Config.PhaseOrder → BitVec 4
  | .sourceThenAdvance => stFreq
  | .advanceThenSource => stTremolo

/-- The stage after FREQ in a pass-1 sample (R95). -/
def afterFreq : Config.PhaseOrder → BitVec 4
  | .sourceThenAdvance => stTremolo
  | .advanceThenSource => stSource

/-- EndOfRender (R97). -/
def State.endOfRender (s : State) : State :=
  { s with renderCycles := Config.renderCyclesFn s.renders, busy := false, done := true, stage := stIdle }

/-- `S.i + 1 < R.NUM_SAMPLES`, exact (R96, R193). -/
def State.moreSamples (s : State) : Bool := decide (s.i.toNat + 1 < s.numSamples.toNat)

/-- Next(STORE_PEAK) (R96). -/
def State.nextAfterStorePeak (s : State) : State :=
  if s.moreSamples then { s with i := s.i + 1, stage := firstStage s.inst.phaseOrder }
  else { s with i := 0, stage := stScale }

/-- Next(SCALE) (R96). -/
def State.nextAfterScale (s : State) : State :=
  if s.moreSamples then { s with i := s.i + 1, stage := stScale } else s.endOfRender

/-! ### Commands (R80 to R84) -/

/-- What an accepted START does (R83). -/
def State.startRender (s : State) : State :=
  { s with
    done := false, error := false, busy := true
    errInfo := 0x000000000000FF00#64
    numSamples := 0, duration := fzero, repeatFreqEff := fzero, maxSample := fzero, renderCycles := 0
    i := 0, stage := stValidate, renders := s.renders + 1 }

/-- `IssueCommand(v)` with the BUSY gate (R80): the word is decoded (R65) and run, or raises ILLEGAL_COMMAND (R84). -/
def State.issueCommand (s : State) (v : Word) : State :=
  if s.busy then (if v = 0x1 then s.resetBlock else s.flagIgnored)
  else
    match decodeCmd v with
    | .ok .nop => s
    | .ok .reset => s.resetBlock
    | .ok .start => s.startRender
    | _ => s.raise .illegalCommand 0xFF

/-! ### Host accesses (R47 to R53) -/

/-- The aperture's size in this instance (R46). -/
def State.aperture (s : State) : Nat := apertureBytes s.inst.maxSamples

/-- `legal(addr, n, read)` (R49, R53): 8 bytes at a register's offset, or 4 bytes at an entry of the window. -/
def legalRead (addr n : Nat) : Bool :=
  if addr < 0x1000 then
    n == 8 && addr % 8 == 0 && (decide (addr ≤ 0x060) || (decide (0x100 ≤ addr) && decide (addr < 0x1E0)))
  else n == 4 && addr % 4 == 0

/-- `legal(addr, n, write)` (R51): 8 bytes at CMD or at a parameter register. -/
def legalWrite (addr n : Nat) : Bool :=
  n == 8 && addr % 8 == 0 && (addr == 0x008 || (decide (0x100 ≤ addr) && decide (addr < 0x1E0)))

/-- `SampleWindowRead(i)` (R52). -/
def State.sampleWindowRead (s : State) (i : Nat) : F32 :=
  if s.numSamples.toNat ≤ i then 0
  else if s.busy then Config.busyWindowWord s.renders s.stage s.i i
  else loadEntry s.sb i

/-- The register at an offset below 0x100 (R21 to R33, R47); CMD reads 0. -/
def State.register (s : State) (addr : Nat) : Word :=
  match addr with
  | 0x000 => 0x4A46585200000007#64
  | 0x008 => 0
  | 0x010 => s.statusWord
  | 0x018 => s.errInfo
  | 0x020 => s.numSamples
  | 0x028 => s.duration
  | 0x030 => s.repeatFreqEff
  | 0x038 => s.maxSample
  | 0x040 => 0x000000003CF78BA3#64
  | 0x048 => s.i
  | 0x050 => s.renderCycles
  | 0x058 => BitVec.ofNat 64 s.inst.maxSamples
  | 0x060 => BitVec.ofNat 64 s.inst.maxHarmonics
  | _ => 0

/-- The word a legal read returns (R50). -/
def State.readWord (s : State) (addr : Nat) : Word :=
  if addr < 0x100 then s.register addr
  else if addr < 0x1000 then s.param ((addr - 0x100) / 8)
  else (s.sampleWindowRead ((addr - 0x1000) / 4)).setWidth 64

/-- The host gets a word from the bus. -/
def State.answer (s : State) (w : Word) : State := { s with hostData := w }

/-- `MemRead(addr, n)` (R50): an illegal read returns 0 and sets ACCESS_ERR. -/
def State.memRead (s : State) (addr n : Nat) : State :=
  if legalRead addr n then s.answer (s.readWord addr) else s.flagAccessErr.answer 0

/-- P[k] <- v (R24). -/
def State.setParam (s : State) (k : Nat) (v : Word) : State := { s with p := s.p.setIfInBounds k v }

/-- `MemWrite(addr, n, v)` (R51). -/
def State.memWrite (s : State) (addr n : Nat) (v : Word) : State :=
  if legalWrite addr n then
    if addr = 0x008 then s.issueCommand v
    else if s.busy then s.flagIgnored
    else s.setParam ((addr - 0x100) / 8) v
  else s.flagAccessErr

/-- A transaction at an offset outside the aperture is not the block's (R47): it faults. -/
def State.inAperture (s : State) (addr : Nat) (s' : State) : Host.Outcome State Fault Refusal :=
  if addr < s.aperture then .next s' else .fault .outsideAperture

/-- An engine access to an entry the buffer does not have faults (R42, R55). -/
def State.atEntry (s s' : State) : Host.Outcome State Fault Refusal :=
  if s.i.toNat < s.inst.maxSamples then .next s' else .fault .noSuchEntry

end Sys2Proof.Machine
end

