-- ==== Sys2Proof/Machine/Bus.lean ====
section
/-!
DEFINITION. The BUS rows: the host's four transactions (R50, R51, R72), and the fetch of the next operation: the
transaction whose turn it is, or the stage the engine is in (R56, R98).
-/

namespace Sys2Proof.Machine

/-- RD32: a 4-byte read (R50). -/
def execRd32 (addr : Nat) (s : State) : Host.Outcome State Fault Refusal := s.inAperture addr (s.memRead addr 4)

/-- WR32: a 4-byte write, always illegal (R51, R72). -/
def execWr32 (addr : Nat) (v : BitVec 32) (s : State) : Host.Outcome State Fault Refusal :=
  s.inAperture addr (s.memWrite addr 4 (v.setWidth 64))

/-- RD64: an 8-byte read (R50). -/
def execRd64 (addr : Nat) (s : State) : Host.Outcome State Fault Refusal := s.inAperture addr (s.memRead addr 8)

/-- WR64: an 8-byte write (R51). -/
def execWr64 (addr : Nat) (v : Word) (s : State) : Host.Outcome State Fault Refusal :=
  s.inAperture addr (s.memWrite addr 8 v)

/-- The stage a code names (R98); a reserved code, which R68 says is never held, names none. -/
def fetchStage (code : BitVec 4) : Host.Outcome Instr Fault Refusal :=
  match decodeStage code with
  | .ok i => .next i
  | .error _ => .refused .reservedStage

/-- The next operation. A host turn gives its transaction, at its offset from BASE (R46); any other turn is the
engine's and gives the stage S.stage names (R98). -/
def State.fetch (s : State) : Host.Outcome Instr Fault Refusal :=
  match s.agenda with
  | .host r :: _ =>
    if r.addr < s.inst.base then .fault .outsideAperture
    else .next (decodeBus r.desc (r.addr - s.inst.base) r.data)
  | _ => fetchStage s.stage

/-- The turn is taken. -/
def State.takeTurn (s : State) : State := { s with agenda := s.agenda.tail }

end Sys2Proof.Machine
end

