-- ==== Sys2Proof/Machine/Command.lean ====
section
/-!
DEFINITION. The CMD rows: what each command word does when it is issued (R79 to R83), with the BUSY gate of R80.
-/

namespace Sys2Proof.Machine

/-- NOP (R81): nothing when not BUSY; when BUSY the word is ignored and IGNORED is set (R80). -/
def execNop (s : State) : Host.Outcome State Fault Refusal := .next (s.issueCommand 0x0)

/-- RESET (R82): `Reset()`, BUSY or not. -/
def execReset (s : State) : Host.Outcome State Fault Refusal := .next (s.issueCommand 0x1)

/-- START (R83): one render begins; when BUSY the word is ignored and IGNORED is set (R80). -/
def execStart (s : State) : Host.Outcome State Fault Refusal := .next (s.issueCommand 0x2)

end Sys2Proof.Machine
end

