-- ==== Sys2Proof/Machine/Envelope.lean ====
section
/-!
DEFINITION. The envelope shaper (R144 to R146) and the power-law compressor (R148).
-/

namespace Sys2Proof.Machine

/-- EnvGain(t) (R144): the attack ramp, the decay ramp, and 1 between them or where a guard applies. -/
def State.envGain (s : State) (t : F64) : F64 :=
  if flt t s.pAttack then fdiv t s.pAttack
  else if flt (fadd s.pAttack s.pSustain) t && !feq s.pDecay fzero then
    fsub (freal 1) (fdiv (fsub (fsub t s.pAttack) s.pSustain) s.pDecay)
  else freal 1

/-- The sample after the envelope: a gain of 1 leaves it as it is (R144). -/
def State.enveloped (s : State) : F64 :=
  if feq (s.envGain s.time) (freal 1) then s.s else fmul s.s (s.envGain s.time)

/-- ENVELOPE (R144). -/
def execEnvelope (s : State) : Host.Outcome State Fault Refusal :=
  .next { s with s := s.enveloped, stage := stCompress }

/-- COMPRESS (R148). -/
def execCompress (s : State) : Host.Outcome State Fault Refusal :=
  .next { s with s := fmul (fsgn s.s) (Config.pow (fabs s.s) s.pCompression), stage := stStorePeak }

end Sys2Proof.Machine
end

