-- ==== Sys2Proof/Machine/Filter.lean ====
section
/-!
DEFINITION. The tremolo (R134) and the two time-varying one-pole filters (R135 to R141).
-/

namespace Sys2Proof.Machine

/-- The tremolo's gain for a depth in percent and the cosine `c` (R134). -/
def tremoloGainOf (depth c : F64) : F64 :=
  fsub (freal 1) (fmul (fdiv depth (freal 100)) (fadd (flit 1 2) (fmul (flit 1 2) c)))

/-- The tremolo's gain at this sample (R134). -/
def State.tremoloGain (s : State) : F64 :=
  tremoloGainOf s.pTremoloDepth (Config.cos (fmul (fmul fTwoPi s.time) s.pTremoloFrequency))

/-- TREMOLO (R134). -/
def execTremolo (s : State) : Host.Outcome State Fault Refusal :=
  .next { s with s := fmul s.s s.tremoloGain, stage := stLpf }

/-- LpfAlpha(wc) (R136): the double sign inversion is kept. -/
def lpfAlpha (wc : F64) : F64 :=
  let c := Config.cos wc
  if fle c fzero then freal 1
  else fsub (freal 1) (fdiv (fsub (freal 1) (fsqrt (fsub (freal 1) (fmul c c)))) c)

/-- One low-pass recurrence: alpha·x[n] + (1-alpha)·y[n-1] (R137). -/
def lpfRecurrence (al x yPrev : F64) : F64 := fadd (fmul al x) (fmul (fsub (freal 1) al) yPrev)

/-- The low-pass output y[n] (R137). -/
def State.lpfOut (s : State) : F64 :=
  lpfRecurrence (lpfAlpha (s.wc s.pLowPassCutoff s.pLowPassCutoffSweep)) s.s s.lpfY

/-- LPF (R137). -/
def execLpf (s : State) : Host.Outcome State Fault Refusal :=
  .next { s with lpfY := s.lpfOut, s := s.lpfOut, stage := stHpf }

/-- HpfAlpha(wc) (R138), with the degenerate case of R139. -/
def hpfAlpha (wc : F64) : F64 :=
  let c := Config.cos wc
  if fle c fzero then fzero else fdiv (fsub (freal 1) (Config.sin wc)) c

/-- One high-pass recurrence: alpha·(y[n-1] - x[n-1] + x[n]) (R140). -/
def hpfRecurrence (al x xPrev yPrev : F64) : F64 := fmul al (fadd (fsub yPrev xPrev) x)

/-- The high-pass output y[n] (R140). -/
def State.hpfOut (s : State) : F64 :=
  hpfRecurrence (hpfAlpha (s.wc s.pHighPassCutoff s.pHighPassCutoffSweep)) s.s s.hpfX s.hpfY

/-- HPF (R140): its memory keeps the input before filtering, and the output. -/
def execHpf (s : State) : Host.Outcome State Fault Refusal :=
  .next { s with hpfX := s.s, hpfY := s.hpfOut, s := s.hpfOut, stage := stEnvelope }

end Sys2Proof.Machine
end

