-- ==== Sys2Proof/Machine/Frequency.lean ====
section
/-!
DEFINITION. The frequency controller and the phase accumulator: stage FREQ (R127 to R131).
-/

namespace Sys2Proof.Machine

/-- FIR(S.i), the fraction in repetition (R127). -/
def State.fir (s : State) : F64 := ffrac (fmul s.time s.repeatFreqEff)

/-- One frequency jump: strictly past its onset, the factor 1 + amount/100 (R128). -/
def jump (r onset amount f : F64) : F64 :=
  if flt (fdiv onset (freal 100)) r then fmul f (fadd (freal 1) (fdiv amount (freal 100))) else f

/-- BaseFreq(r): base frequency, sweeps and the two independent jumps (R128). -/
def State.baseFreq (s : State) (r : F64) : F64 :=
  jump r s.pFrequencyJump2Onset s.pFrequencyJump2Amount <|
    jump r s.pFrequencyJump1Onset s.pFrequencyJump1Amount <|
      fadd (fadd s.pFrequency (fmul r s.pFrequencySweep)) (fmul (fmul r r) s.pFrequencyDeltaSweep)

/-- Vibrato(f, t): the vibrato term is one value, added (R129). -/
def State.vibrato (s : State) (f t : F64) : F64 :=
  fadd f
    (fsub (freal 1)
      (fmul s.pVibratoDepth
        (fsub (flit 1 2) (fmul (flit 1 2) (Config.sin (fmul (fmul fTwoPi t) s.pVibratoFrequency))))))

/-- S.f as FREQ computes it (R130). -/
def State.currentFreq (s : State) : F64 := s.vibrato (s.baseFreq s.fir) s.time

/-- FREQ (R130): the instantaneous frequency, and the phase advanced by it. A frequency that is not finite makes the
phase a NaN, which stays; what each oscillator makes of it is its shape's rule (log entry 25). -/
def execFreq (s : State) : Host.Outcome State Fault Refusal :=
  .next
    { s with
      f := s.currentFreq
      phase := ffrac (fadd s.phase (fdiv s.currentFreq s.pSampleRate))
      stage := afterFreq s.inst.phaseOrder }

end Sys2Proof.Machine
end

