-- ==== Sys2Proof/Machine/Post.lean ====
section
/-!
DEFINITION. The post-processor: STORE_PEAK, the last stage of pass 1 (R152), and SCALE, the stage of pass 2 (R153,
R154).
-/

namespace Sys2Proof.Machine

/-- STORE_PEAK without its next stage: the sample is stored, and the peak is taken over the stored value (R152). -/
def State.storedPeak (s : State) : State :=
  let w := f32OfF64 s.s
  { s with sb := storeEntry s.sb s.i.toNat w, maxSample := fmax s.maxSample (fabs (f64OfF32 w)) }

/-- STORE_PEAK (R152, R96). -/
def execStorePeak (s : State) : Host.Outcome State Fault Refusal := s.atEntry s.storedPeak.nextAfterStorePeak

/-- Factor() (R153). -/
def State.factor (s : State) : F64 :=
  let f := fdiv s.pAmplification (freal 100)
  if decide (s.pNormalization = 1) && !feq s.maxSample fzero then fdiv f s.maxSample else f

/-- SB[S.i] as SCALE computes it (R154). -/
def State.scaledEntry (s : State) : F32 := f32OfF64 (fmul (f64OfF32 (loadEntry s.sb s.i.toNat)) s.factor)

/-- SCALE (R154, R96, R97). -/
def execScale (s : State) : Host.Outcome State Fault Refusal :=
  s.atEntry { s with sb := storeEntry s.sb s.i.toNat s.scaledEntry : State }.nextAfterScale

end Sys2Proof.Machine
end

