-- ==== Sys2Proof/Machine/Noise.lean ====
section
/-!
DEFINITION. The noise source operations (R107 to R113). Each takes one draw and writes S.s; the stage moves on in
SOURCE (R100), which runs them.
-/

namespace Sys2Proof.Machine

/-- SRC_WHITENOISE (R108). -/
def State.srcWhitenoise (s : State) : State :=
  let (w, s') := s.draw
  { s' with s := w }

/-- One pink tap: decay * tap + w * weight (R109, R110). -/
def pinkTap (decay tap w weight : F64) : F64 := fadd (fmul decay tap) (fmul w weight)

/-- The seven-term sum, the direct white term and the division by 7, in the order of R109 and R111. -/
def pinkOut (t0 t1 t2 t3 t4 t5 carry w : F64) : F64 :=
  fdiv
    (fadd (fadd (fadd (fadd (fadd (fadd (fadd t0 t1) t2) t3) t4) t5) carry) (fmul w (flit 5362 10000)))
    (freal 7)

/-- SRC_PINKNOISE (R109, R110): the sum reads the carry tap of the sample before, and then overwrites it. -/
def State.srcPinknoise (s : State) : State :=
  let (w, s') := s.draw
  let t0 := pinkTap (flit 99886 100000) s.pink[0] w (flit 555179 10000000)
  let t1 := pinkTap (flit 99332 100000) s.pink[1] w (flit 750759 10000000)
  let t2 := pinkTap (flit 96900 100000) s.pink[2] w (flit 1538520 10000000)
  let t3 := pinkTap (flit 86650 100000) s.pink[3] w (flit 3104856 10000000)
  let t4 := pinkTap (flit 55000 100000) s.pink[4] w (flit 5329522 10000000)
  let t5 := fadd (fmul (fneg (flit 7616 10000)) s.pink[5])
    (fmul (pinkSignFactor s.inst.pinkB5Sign) (fmul w (flit 168980 10000000)))
  { s' with
    s := pinkOut t0 t1 t2 t3 t4 t5 s.pink[6] w
    pink := #v[t0, t1, t2, t3, t4, t5, fmul w (flit 115926 1000000)] }

/-- SRC_BROWNNOISE (R112): the clamped value is the one that persists. -/
def State.srcBrownnoise (s : State) : State :=
  let (w, s') := s.draw
  let b := fclamp (fneg (freal 1)) (freal 1) (fadd s.brown (fmul (flit 1 10) w))
  { s' with brown := b, s := b }

/-- SRC_WHITENOISE (R108). -/
def execSrcWhitenoise (s : State) : Host.Outcome State Fault Refusal := .next s.srcWhitenoise

/-- SRC_PINKNOISE (R109). -/
def execSrcPinknoise (s : State) : Host.Outcome State Fault Refusal := .next s.srcPinknoise

/-- SRC_BROWNNOISE (R112). -/
def execSrcBrownnoise (s : State) : Host.Outcome State Fault Refusal := .next s.srcBrownnoise

end Sys2Proof.Machine
end

