-- ==== Sys2Proof/Machine/Oscillator.lean ====
section
/-!
DEFINITION. The harmonic oscillator: the seven shape functions (R117 to R124) and the source operations, each OscSum
of its shape (R114). The stage moves on in SOURCE (R100), which runs them.
-/

namespace Sys2Proof.Machine

/-- sine(p) (R117). -/
def shapeSine (p : F64) : F64 := Config.sin (fmul fTwoPi p)

/-- triangle(p) (R118). -/
def shapeTriangle (p : F64) : F64 :=
  if flt p (flit 1 4) then fmul (freal 4) p
  else if flt p (flit 3 4) then fsub (freal 2) (fmul (freal 4) p)
  else fsub (fmul (freal 4) p) (freal 4)

/-- sawtooth(p) (R119). -/
def shapeSawtooth (p : F64) : F64 :=
  if flt p (flit 1 2) then fmul (freal 2) p else fsub (fmul (freal 2) p) (freal 2)

/-- square(p) for the duty cycle d (R120). A NaN phase fails the comparison (R8) and gives -1, where R130 says that
every later oscillator sample is NaN: this follows R120's pseudocode (DEDUCED, unsafe, log entry 25). -/
def shapeSquare (d p : F64) : F64 := if flt p d then freal 1 else fneg (freal 1)

/-- tangent(p) (R122). -/
def shapeTangent (p : F64) : F64 :=
  fclamp (fneg (freal 2)) (freal 2) (fmul (flit 3 10) (Config.tan (fmul fPI p)))

/-- whistle(p) (R123). -/
def shapeWhistle (p : F64) : F64 :=
  fadd (fmul (flit 3 4) (Config.sin (fmul fTwoPi p))) (fmul (flit 1 4) (Config.sin (fmul f40Pi p)))

/-- breaker's shifted phase: one subtraction when it is at or past 1 (R124). -/
def breakerPhase (p : F64) : F64 :=
  let q := fadd p fSqrt075
  if fle (freal 1) q then fsub q (freal 1) else q

/-- breaker(p) (R124). -/
def shapeBreaker (p : F64) : F64 :=
  let q := breakerPhase p
  fadd (fneg (freal 1)) (fmul (freal 2) (fabs (fsub (freal 1) (fmul (freal 2) (fmul q q)))))

/-- S.s <- OscSum(shape) (R114). -/
def State.oscillate (s : State) (shape : F64 → F64) : State := { s with s := s.oscSum shape }

/-- SRC_SINE (R117). -/
def execSrcSine (s : State) : Host.Outcome State Fault Refusal := .next (s.oscillate shapeSine)

/-- SRC_TRIANGLE (R118). -/
def execSrcTriangle (s : State) : Host.Outcome State Fault Refusal := .next (s.oscillate shapeTriangle)

/-- SRC_SAWTOOTH (R119). -/
def execSrcSawtooth (s : State) : Host.Outcome State Fault Refusal := .next (s.oscillate shapeSawtooth)

/-- SRC_SQUARE (R120), with d = Duty(S.i) (R121). -/
def execSrcSquare (s : State) : Host.Outcome State Fault Refusal := .next (s.oscillate (shapeSquare s.duty))

/-- SRC_TANGENT (R122). -/
def execSrcTangent (s : State) : Host.Outcome State Fault Refusal := .next (s.oscillate shapeTangent)

/-- SRC_WHISTLE (R123). -/
def execSrcWhistle (s : State) : Host.Outcome State Fault Refusal := .next (s.oscillate shapeWhistle)

/-- SRC_BREAKER (R124). -/
def execSrcBreaker (s : State) : Host.Outcome State Fault Refusal := .next (s.oscillate shapeBreaker)

end Sys2Proof.Machine
end

