-- ==== Sys2Proof/Machine/Sequencer.lean ====
section
/-!
DEFINITION. The stages that are not per-sample arithmetic: IDLE, VALIDATE (R86 to R90), NORMALIZE (R91, R92), INIT
(R94) and SOURCE (R100).
-/

namespace Sys2Proof.Machine

/-- The three u64 parameters; the others are binary64 (R7, R24). -/
def isWordParam (k : Nat) : Bool := k == 16 || k == 18 || k == 26

/-- `Legal(k, v)`, the table of R88, for an instance that accepts up to `maxHarmonics`. -/
def legalParam (maxHarmonics k : Nat) (v : Word) : Bool :=
  match k with
  | 0 => ffinite v && flt fzero v
  | 1 | 2 | 3 => ffinite v && fle fzero v
  | 4 | 12 | 13 => ffinite v && fle fzero v && fle v (freal 100)
  | 6 => ffinite v && fle fzero v && fle v (freal 1)
  | 16 => decide (v.toNat ≤ maxHarmonics)
  | 18 => decide (v.toNat ≤ 9)
  | 25 => ffinite v && flt fzero v
  | 26 => decide (v = 0) || decide (v = 1)
  | _ => ffinite v

/-- The first k of the list whose parameter is not legal (R87). -/
def State.firstIllegal (s : State) : List Nat → Option Nat
  | [] => none
  | k :: ks => if legalParam s.inst.maxHarmonics k (s.param k) then s.firstIllegal ks else some k

/-- The harmonic-sum check fails (R89): oscillator waveforms only. -/
def State.badHarmonicSum (s : State) : Bool :=
  s.isOscillator && (feq s.harmonicDenominator fzero || !ffinite s.harmonicDenominator)

/-- The sample-count check fails (R90). -/
def State.badCount (s : State) : Bool :=
  !ffinite s.rawCount || flt (freal s.inst.maxSamples) (fmax (freal 1) s.rawCount)

/-- The PARAM byte of the error VALIDATE finds, in the order of R87: the parameters in ascending k, the harmonic sum,
the sample count; none when the set is valid. -/
def State.validationError (s : State) : Option Nat :=
  match s.firstIllegal (List.range 28) with
  | some k => some k
  | none => if s.badHarmonicSum then some 17 else if s.badCount then some 0xFE else none

/-- IDLE (R96, R174): the engine has no step, so its turn changes nothing. -/
def execIdle (s : State) : Host.Outcome State Fault Refusal := .next s

/-- VALIDATE (R86). -/
def execValidate (s : State) : Host.Outcome State Fault Refusal :=
  match s.validationError with
  | some k => .next (s.raise .invalidParameter k)
  | none => .next (s.goto stNormalize)

/-- NUM_SAMPLES as NORMALIZE computes it (R91). -/
def State.count (s : State) : Word := fint (fmax (freal 1) s.rawCount)

/-- DURATION as NORMALIZE computes it (R91). -/
def State.renderDuration (s : State) : F64 := fdiv (freal s.count.toNat) s.pSampleRate

/-- The repeat frequency raised to at least 1/duration (R92). -/
def State.flooredRepeat (s : State) : F64 :=
  let m := fdiv (freal 1) s.renderDuration
  if flt s.pRepeatFrequency m then m else s.pRepeatFrequency

/-- NORMALIZE (R91, R92). -/
def execNormalize (s : State) : Host.Outcome State Fault Refusal :=
  .next
    { s with
      numSamples := s.count, duration := s.renderDuration, repeatFreqEff := s.flooredRepeat, stage := stInit }

/-- INIT (R94). -/
def execInit (s : State) : Host.Outcome State Fault Refusal :=
  .next
    { s with
      phase := fzero, pink := Vector.replicate 7 fzero, brown := fzero, draws := 0
      lpfY := fzero, hpfX := fzero, hpfY := fzero, s := fzero, f := fzero
      a0 := if s.isOscillator then fdiv (freal 1) s.harmonicDenominator else fzero
      maxSample := fzero, i := 0, stage := firstStage s.inst.phaseOrder }

/-- The source operation P.waveform selects (R67, R100); there is none for a tag above 9. -/
def State.sourced (s : State) : Option State :=
  match s.pWaveform.toNat with
  | 0 => some (s.oscillate shapeSine)
  | 1 => some (s.oscillate shapeTriangle)
  | 2 => some (s.oscillate shapeSawtooth)
  | 3 => some (s.oscillate (shapeSquare s.duty))
  | 4 => some (s.oscillate shapeTangent)
  | 5 => some (s.oscillate shapeWhistle)
  | 6 => some (s.oscillate shapeBreaker)
  | 7 => some s.srcWhitenoise
  | 8 => some s.srcPinknoise
  | 9 => some s.srcBrownnoise
  | _ => none

/-- SOURCE (R100): the selected source operation, then Next(SOURCE). -/
def execSource (s : State) : Host.Outcome State Fault Refusal :=
  match s.sourced with
  | some t => .next (t.goto (afterSource s.inst.phaseOrder))
  | none => .fault .unknownWaveform

end Sys2Proof.Machine
end

