-- ==== Sys2Proof/Machine/Dispatch.lean ====
section
/-! DEFINITION. The dispatch: one arm per operation. -/

namespace Sys2Proof.Machine

def exec (i : Instr) (s : State) : Host.Outcome State Fault Refusal :=
  match i with
  | .nop => Sys2Proof.Machine.execNop s
  | .reset => Sys2Proof.Machine.execReset s
  | .start => Sys2Proof.Machine.execStart s
  | .srcSine => Sys2Proof.Machine.execSrcSine s
  | .srcTriangle => Sys2Proof.Machine.execSrcTriangle s
  | .srcSawtooth => Sys2Proof.Machine.execSrcSawtooth s
  | .srcSquare => Sys2Proof.Machine.execSrcSquare s
  | .srcTangent => Sys2Proof.Machine.execSrcTangent s
  | .srcWhistle => Sys2Proof.Machine.execSrcWhistle s
  | .srcBreaker => Sys2Proof.Machine.execSrcBreaker s
  | .srcWhitenoise => Sys2Proof.Machine.execSrcWhitenoise s
  | .srcPinknoise => Sys2Proof.Machine.execSrcPinknoise s
  | .srcBrownnoise => Sys2Proof.Machine.execSrcBrownnoise s
  | .idle => Sys2Proof.Machine.execIdle s
  | .validate => Sys2Proof.Machine.execValidate s
  | .normalize => Sys2Proof.Machine.execNormalize s
  | .init => Sys2Proof.Machine.execInit s
  | .source => Sys2Proof.Machine.execSource s
  | .freq => Sys2Proof.Machine.execFreq s
  | .tremolo => Sys2Proof.Machine.execTremolo s
  | .lpf => Sys2Proof.Machine.execLpf s
  | .hpf => Sys2Proof.Machine.execHpf s
  | .envelope => Sys2Proof.Machine.execEnvelope s
  | .compress => Sys2Proof.Machine.execCompress s
  | .storePeak => Sys2Proof.Machine.execStorePeak s
  | .scale => Sys2Proof.Machine.execScale s
  | .rd32 a => Sys2Proof.Machine.execRd32 a s
  | .wr32 a v => Sys2Proof.Machine.execWr32 a v s
  | .rd64 a => Sys2Proof.Machine.execRd64 a s
  | .wr64 a v => Sys2Proof.Machine.execWr64 a v s

end Sys2Proof.Machine
end

