-- ==== Sys2Proof/Machine/Step.lean ====
section
/-!
DEFINITION. One step of the machine: the operation whose turn it is, run on the state with that turn taken (R56, R98),
and where the host's question about a table word puts that word.
-/

namespace Sys2Proof.Machine

/-- One step: a host transaction or an engine step, each atomic (R54, R56, R98). -/
def step (s : State) : Host.Outcome State Fault Refusal :=
  match s.fetch with
  | .next i => exec i s.takeTurn
  | .fault f => .fault f
  | .refused r => .refused r

/-- The turns with the engine's first: nothing is added where it already is. -/
def engineFirst : List Turn → List Turn
  | .host r :: t => .engine :: .host r :: t
  | l => l

/-- The state whose next step fetches and runs a table word, laid out as `tableWord` says (log entry 10): a waveform
tag goes to P.waveform with S.stage at SOURCE, a stage code to S.stage, a bus descriptor to a host turn at BASE. -/
def State.withFetchWord (s : State) (nbits w : Nat) : State :=
  match tableWord nbits w with
  | some (.waveform t) =>
    { s with p := s.p.setIfInBounds 18 t, stage := stSource, agenda := engineFirst s.agenda }
  | some (.stage c) => { s with stage := c, agenda := engineFirst s.agenda }
  | some (.bus d a v) => { s with agenda := .host ⟨d, s.inst.base + a, v⟩ :: s.agenda }
  | some (.cmd v) => { s with agenda := .host ⟨0b11, s.inst.base + 0x008, v⟩ :: s.agenda }
  | none => s

end Sys2Proof.Machine
end

