-- ==== Sys2Proof/Safety.lean ====
section
/-!
DEFINITION. The terms the statements use: runs of the machine, the real value of a binary64 or binary32 pattern and
correct rounding (R8, R11), and the invariant of the machine (R23, R25, R35 to R42, R55, R88 to R96).
-/

namespace Sys2Proof.Machine

/-! ### Runs -/

/-- `n` steps, stopping at the first fault or refusal. -/
def runSteps : Nat → State → Host.Outcome State Fault Refusal
  | 0, s => .next s
  | n + 1, s =>
    match step s with
    | .next t => runSteps n t
    | .fault f => .fault f
    | .refused r => .refused r

/-- The next turn is the engine's. -/
def State.engineTurn (s : State) : Prop := ∀ r l, s.agenda ≠ .host r :: l

/-- The next turn is a host transaction that the block decodes (R46). -/
def State.hostTurn (s : State) (r : BusRequest) : Prop :=
  s.agenda.head? = some (.host r) ∧ s.inst.base ≤ r.addr ∧ r.addr < s.inst.base + s.aperture

/-- The next turn is the host's write of the word `v` to CMD. -/
def State.commandTurn (s : State) (v : Word) : Prop :=
  s.agenda.head? = some (.host ⟨0b11, s.inst.base + 0x008, v⟩)

/-- A render that START has accepted and VALIDATE has not checked yet, with no host turn to come. -/
def State.renderPending (s : State) : Prop := s.busy = true ∧ s.stage = stValidate ∧ s.agenda = []

/-! ### Values and rounding -/

/-- The real value of a finite binary64 pattern (R69). -/
def f64Value (x : F64) : ℚ := (fscaled x : ℚ) / (unitsPerOne : ℚ)

/-- The real value of a finite binary32 pattern (R71). -/
def f32Value (w : F32) : ℚ :=
  let e := w.toNat / 2 ^ 23 % 2 ^ 8
  let frac := w.toNat % 2 ^ 23
  (if w.getLsbD 31 then -1 else 1) * ((if e = 0 then frac else (2 ^ 23 + frac) * 2 ^ (e - 1) : Nat) : ℚ) / 2 ^ 149

/-- A binary32 pattern that is neither a NaN nor an infinity. -/
def f32Finite (w : F32) : Bool := w.toNat / 2 ^ 23 % 2 ^ 8 != 255

/-- The least magnitude that roundTiesToEven sends to a binary64 infinity. -/
def f64Overflow : ℚ := 2 ^ 1024 - 2 ^ 970

/-- The least magnitude that roundTiesToEven sends to a binary32 infinity. -/
def f32Overflow : ℚ := 2 ^ 128 - 2 ^ 103

/-- How far the value of a pattern is from the real v. -/
noncomputable def distanceTo (v : ℝ) (q : ℚ) : ℝ := |(q : ℝ) - v|

/-- r is the binary64 result of rounding the real v with roundTiesToEven (R8): the nearest finite value, an even
pattern where another value is as near, and an infinity with v's sign beyond the format's range. -/
def RoundsTo (v : ℝ) (r : F64) : Prop :=
  (v ≤ -(f64Overflow : ℝ) → r = finfOf true) ∧ ((f64Overflow : ℝ) ≤ v → r = finfOf false) ∧
    (|v| < (f64Overflow : ℝ) →
      ffinite r = true ∧ (∀ c, ffinite c = true → distanceTo v (f64Value r) ≤ distanceTo v (f64Value c)) ∧
        (∀ c, ffinite c = true → f64Value c ≠ f64Value r →
          distanceTo v (f64Value c) = distanceTo v (f64Value r) → r.getLsbD 0 = false))

/-- The same for a binary32 result (R11). -/
def RoundsTo32 (v : ℝ) (r : F32) : Prop :=
  (v ≤ -(f32Overflow : ℝ) → r = 0xFF800000#32) ∧ ((f32Overflow : ℝ) ≤ v → r = 0x7F800000#32) ∧
    (|v| < (f32Overflow : ℝ) →
      f32Finite r = true ∧ (∀ c, f32Finite c = true → distanceTo v (f32Value r) ≤ distanceTo v (f32Value c)) ∧
        (∀ c, f32Finite c = true → f32Value c ≠ f32Value r →
          distanceTo v (f32Value c) = distanceTo v (f32Value r) → r.getLsbD 0 = false))

/-! ### The invariant -/

/-- STATUS: BUSY exactly when the stage is not IDLE, at most one of BUSY, DONE and ERROR, and no reserved stage (R23,
R68). -/
def State.statusCoherent (s : State) : Prop :=
  s.busy = decide (s.stage ≠ stIdle) ∧ (s.busy && s.done) = false ∧ (s.busy && s.error) = false ∧
    (s.done && s.error) = false ∧ s.stage.toNat ≤ 12

/-- The bits R25 reserves read 0. -/
def State.errInfoReservedZero (s : State) : Prop := s.errInfo.toNat < 2 ^ 16

/-- Past VALIDATE the parameter set is valid (R86, R183). -/
def State.parametersPassed (s : State) : Prop := 2 ≤ s.stage.toNat → s.validationError = none

/-- Past NORMALIZE the derived results are those of R91 and R92, and the render fits the buffer (R90). -/
def State.resultsFixed (s : State) : Prop :=
  3 ≤ s.stage.toNat →
    s.numSamples = s.count ∧ s.duration = s.renderDuration ∧ s.repeatFreqEff = s.flooredRepeat ∧
      1 ≤ s.numSamples.toNat ∧ s.numSamples.toNat ≤ s.inst.maxSamples

/-- Past INIT the sample index is one of the render's (R40, R55). -/
def State.indexInRange (s : State) : Prop := 4 ≤ s.stage.toNat → s.i.toNat < s.numSamples.toNat

/-- The buffer's bytes are in canonical form and lie in the sample window (R42, R47). -/
def State.bufferOk (s : State) : Prop :=
  Memory.wf s.sb = true ∧ ∀ e ∈ s.sb, 0x1000 ≤ e.1 ∧ e.1 < s.aperture

/-- MAX_SAMPLE is never negative and never a NaN (R152). -/
def State.peakOk (s : State) : Prop := fle fzero s.maxSample = true

/-- -1 ≤ S.brown ≤ 1 (R113). -/
def State.brownOk (s : State) : Prop := fle (fneg (freal 1)) s.brown = true ∧ fle s.brown (freal 1) = true

/-- S.phase is in [0, 1] or is a NaN (R132). -/
def State.phaseOk (s : State) : Prop :=
  fisNaN s.phase = true ∨ (fle fzero s.phase = true ∧ fle s.phase (freal 1) = true)

/-- Before NORMALIZE has run NUM_SAMPLES, DURATION and REPEAT_FREQ_EFF are 0 (R26 to R28, R184). -/
def State.pendingZero (s : State) : Prop :=
  1 ≤ s.stage.toNat → s.stage.toNat ≤ 2 → s.numSamples = 0 ∧ s.duration = fzero ∧ s.repeatFreqEff = fzero

/-- RENDER_CYCLES is 0 while BUSY (R184). -/
def State.cyclesZero (s : State) : Prop := s.busy = true → s.renderCycles = 0

/-- After a START that failed NUM_SAMPLES is 0 (R26, R52, R106). -/
def State.failedUnreadable (s : State) : Prop :=
  s.error = true → s.errInfo.toNat % 2 ^ 8 = 2 → s.numSamples = 0

/-- The machine's invariant. -/
structure State.Inv (s : State) : Prop where
  instLegal : s.inst.legal = true
  status : s.statusCoherent
  errInfo : s.errInfoReservedZero
  parameters : s.parametersPassed
  results : s.resultsFixed
  index : s.indexInRange
  buffer : s.bufferOk
  peak : s.peakOk
  brown : s.brownOk
  phase : s.phaseOk
  pending : s.pendingZero
  cycles : s.cyclesZero
  failed : s.failedUnreadable

/-- In pass 1 MAX_SAMPLE is at least the magnitude of every sample stored so far that is not a NaN (R29, R152). -/
def State.peakBoundsStored (s : State) : Prop :=
  4 ≤ s.stage.toNat → s.stage.toNat ≤ 11 → ∀ j, j < s.i.toNat →
    fisNaN (f64OfF32 (loadEntry s.sb j)) = true ∨ fle (fabs (f64OfF32 (loadEntry s.sb j))) s.maxSample = true

end Sys2Proof.Machine
end

