-- ==== Sys2Proof/Certificates/Slice0/Obligations.lean ====
section
/-!
DEFINITION. The statements for the provers. Each docstring names the rule of `spec/` it formalises. A statement of an
operation's result is an equation for its whole next state, so it is also the operation's frame and says that the
operation completes; where the operation stores, the bytes outside the store are said to read as before.
-/

open Sys2Proof Sys2Proof.Machine

/-! ### Encoding -/

/-- R65, R66, R68, R72, R78: the decoder inverts the encoder on every instruction, and every word of every format that
decodes to an instruction is that instruction's encoding (a transaction's unused data lanes aside). -/
def Obligations.DecodeInvertsEncodeOnEveryFormat : Prop :=
  (∀ i : Instr, i.wellFormed = true → decode (encode i) = .ok i) ∧
    (∀ w i, decode (.cmd w) = .ok i → encode i = .cmd w) ∧
      (∀ t i, decode (.waveform t) = .ok i → encode i = .waveform t) ∧
        (∀ c i, decode (.stage c) = .ok i → encode i = .stage c) ∧
          (∀ d a v, ∃ i, decode (.bus d a v) = .ok i ∧
            encode i = .bus d a (if d = 0b01 then v &&& 0xFFFFFFFF#64 else if d = 0b11 then v else 0))

/-- R65, R66, R68, R72: words written out from the spec's tables decode to the operations they stand for, and the
words the spec calls illegal, unknown or reserved are rejected by name. -/
def Obligations.SpecWordsDecodeToTheirOperations : Prop :=
  decode (.cmd 0x0000000000000001) = .ok .reset ∧ decode (.cmd 0x0000000000000002) = .ok .start ∧
    decode (.cmd 0x0000000000000102) = .error .illegalCommand ∧ decode (.waveform 5) = .ok .srcWhistle ∧
      decode (.waveform 9) = .ok .srcBrownnoise ∧ decode (.waveform 10) = .error .unknownWaveform ∧
        decode (.stage 0x5) = .ok .freq ∧ decode (.stage 0xB) = .ok .storePeak ∧
          decode (.stage 0xD) = .error .reservedStage ∧
            decode (.bus 0b10 0x010 0) = .ok (.rd64 0x010) ∧
              decode (.bus 0b11 0x008 2) = .ok (.wr64 0x008 2)

/-! ### One step -/

/-- R56, R98: an engine turn runs the stage S.stage names, a host turn its transaction at its offset from BASE; all a
step adds is that the turn is taken from the model's own list of turns (log entry 2). -/
def Obligations.StepRunsTheDecodedOperation : Prop :=
  (∀ s i, s.engineTurn → decodeStage s.stage = .ok i → step s = exec i { s with agenda := s.agenda.tail }) ∧
    ∀ s r l i, s.agenda = .host r :: l → s.inst.base ≤ r.addr →
      decode (.bus r.desc (r.addr - s.inst.base) r.data) = .ok i → step s = exec i { s with agenda := l }

/-- The model's stops, each its own choice where the spec gives no effect: an offset outside the aperture (R47: "the
platform's concern"), a reserved stage code (R68: never held), a tag above 9 in SOURCE (R100: never reaches it), and an
entry the buffer does not have (R55: never used). Log entries 11 and 12. -/
def Obligations.StopsAtTargetsTheSpecGivesNoEffect : Prop :=
  (∀ s a v w, s.aperture ≤ a →
      exec (.rd32 a) s = .fault .outsideAperture ∧ exec (.wr32 a v) s = .fault .outsideAperture ∧
        exec (.rd64 a) s = .fault .outsideAperture ∧ exec (.wr64 a w) s = .fault .outsideAperture) ∧
    (∀ s r l, s.agenda = .host r :: l → r.addr < s.inst.base → step s = .fault .outsideAperture) ∧
      (∀ s : State, s.engineTurn → 12 < s.stage.toNat → step s = .refused .reservedStage) ∧
        (∀ s : State, 9 < s.pWaveform.toNat → exec .source s = .fault .unknownWaveform) ∧
          ∀ s : State, s.inst.maxSamples ≤ s.i.toNat →
            exec .storePeak s = .fault .noSuchEntry ∧ exec .scale s = .fault .noSuchEntry

/-! ### Commands, reset and errors -/

/-- R178, R180 (the power-on table, read through the bus): in the reset state every register reads its reset value. -/
def Obligations.ResetRegistersReadTheirResetValues : Prop :=
  ∀ a v, (a, v) ∈ ([(0x000, 0x4A46585200000007), (0x008, 0), (0x010, 0), (0x018, 0xFF00), (0x020, 0), (0x028, 0),
      (0x030, 0), (0x038, 0), (0x040, 0x3CF78BA3), (0x048, 0), (0x050, 0), (0x058, 0x100000), (0x060, 0xFF)] ++
        (List.range 28).map (fun k => (0x100 + 8 * k, 0)) : List (Nat × Word)) →
    exec (.rd64 a) State.reset = .next { State.reset with hostData := v }

/-- R81, R80: NOP changes nothing when not BUSY, and sets IGNORED when BUSY. R96, R174: IDLE has no step; the model's
choice is that an engine turn in it changes nothing (log entry 13). -/
def Obligations.NopAndIdleChangeNothing : Prop :=
  (∀ s, s.busy = false → exec .nop s = .next s) ∧
    (∀ s, s.busy = true → exec .nop s = .next { s with ignored := true }) ∧ ∀ s, exec .idle s = .next s

/-- R82, with the table of R178: RESET gives every element its reset value, BUSY or not, and leaves the buffer. The
instance's parameters and the host's side are not the block's state: that RESET leaves them is the model's choice (log
entries 2 and 15). -/
def Obligations.ResetCommandGivesEveryElementItsResetValue : Prop :=
  ∀ s, exec .reset s = .next
    { inst := s.inst
      busy := false, done := false, error := false, accessErr := false, ignored := false
      errInfo := 0x000000000000FF00
      p := Vector.replicate 28 0
      numSamples := 0, duration := 0, repeatFreqEff := 0, maxSample := 0, renderCycles := 0
      phase := 0, pink := Vector.replicate 7 0, brown := 0, draws := 0
      lpfY := 0, hpfX := 0, hpfY := 0, a0 := 0
      stage := 0, i := 0, s := 0, f := 0
      sb := s.sb
      agenda := s.agenda, hostData := s.hostData, renders := s.renders }

/-- R83: an accepted START clears the results and the error record, sets BUSY and goes to VALIDATE; a START while BUSY
only sets IGNORED. The render count is the model's own field (log entry 2). -/
def Obligations.StartBeginsARender : Prop :=
  (∀ s, s.busy = false → exec .start s = .next
      { s with
        done := false, error := false, busy := true
        errInfo := 0x000000000000FF00
        numSamples := 0, duration := 0, repeatFreqEff := 0, maxSample := 0, renderCycles := 0
        i := 0, stage := 0x1
        renders := s.renders + 1 }) ∧
    ∀ s, s.busy = true → exec .start s = .next { s with ignored := true }

/-- R80, R84: a word written to CMD runs its command; any other word raises ILLEGAL_COMMAND when not BUSY, and only
sets IGNORED when BUSY. -/
def Obligations.CommandWritesIssueTheirWord : Prop :=
  ∀ s, exec (.wr64 0x008 0x0) s = exec .nop s ∧ exec (.wr64 0x008 0x1) s = exec .reset s ∧
    exec (.wr64 0x008 0x2) s = exec .start s ∧
      ∀ v, v ≠ 0x0 → v ≠ 0x1 → v ≠ 0x2 →
        (s.busy = true → exec (.wr64 0x008 v) s = .next { s with ignored := true }) ∧
          (s.busy = false → exec (.wr64 0x008 v) s = .next
            { s with errInfo := 0x000000000000FF03, error := true, done := false, busy := false, stage := 0x0 })

/-! ### Validation, normalization, initialisation -/

/-- R88: the table of legal values, over the reals. -/
def Obligations.LegalValuesAreTheTable : Prop :=
  ∀ m v,
    (∀ k ∈ [0, 25], legalParam m k v = true ↔ ffinite v = true ∧ 0 < f64Value v) ∧
      (∀ k ∈ [1, 2, 3], legalParam m k v = true ↔ ffinite v = true ∧ 0 ≤ f64Value v) ∧
        (∀ k ∈ [4, 12, 13], legalParam m k v = true ↔ ffinite v = true ∧ 0 ≤ f64Value v ∧ f64Value v ≤ 100) ∧
          (legalParam m 6 v = true ↔ ffinite v = true ∧ 0 ≤ f64Value v ∧ f64Value v ≤ 1) ∧
            (∀ k ∈ [5, 7, 8, 9, 10, 11, 14, 15, 17, 19, 20, 21, 22, 23, 24, 27],
              legalParam m k v = true ↔ ffinite v = true) ∧
              (legalParam m 16 v = true ↔ v.toNat ≤ m) ∧ (legalParam m 18 v = true ↔ v.toNat ≤ 9) ∧
                (legalParam m 26 v = true ↔ v = 0 ∨ v = 1)

/-- R115: HarmonicSum is the sum of the powers by repeated multiplication, in ascending k. -/
def Obligations.HarmonicSumAddsThePowersInOrder : Prop :=
  ∀ (r : F64) (h : Nat) (sig t : Nat → F64), sig 0 = 0 → t 0 = freal 1 →
    (∀ k, sig (k + 1) = fadd (sig k) (t k)) → (∀ k, t (k + 1) = fmul (t k) r) → harmonicSum h r = sig (h + 1)

/-- R86, R87: VALIDATE reports the first parameter that is not legal, else the harmonic sum of an oscillator, else the
sample count; a valid set changes only the stage. Each error clears BUSY and DONE, sets ERROR and ends in IDLE. -/
def Obligations.ValidateReportsTheFirstFailure : Prop :=
  ∀ s : State,
    (∀ k : Fin 28, legalParam s.inst.maxHarmonics k s.p[k] = false →
      (∀ j : Fin 28, j < k → legalParam s.inst.maxHarmonics j s.p[j] = true) →
        exec .validate s = .next
          { s with
            errInfo := BitVec.ofNat 64 (k.val * 256 + 2), error := true, done := false, busy := false
            stage := 0x0 }) ∧
      ((∀ k : Fin 28, legalParam s.inst.maxHarmonics k s.p[k] = true) →
        let sig := harmonicSum s.p[16].toNat s.p[17]
        let c := fceil (fmul s.p[0] (fadd (fadd s.p[1] s.p[2]) s.p[3]))
        let badSum := s.p[18].toNat ≤ 6 ∧ (feq sig 0 = true ∨ ffinite sig = false)
        let badCount := ffinite c = false ∨ flt (freal s.inst.maxSamples) (fmax (freal 1) c) = true
        (badSum → exec .validate s = .next
            { s with errInfo := 0x1102, error := true, done := false, busy := false, stage := 0x0 }) ∧
          (¬ badSum → badCount → exec .validate s = .next
            { s with errInfo := 0xFE02, error := true, done := false, busy := false, stage := 0x0 }) ∧
            (¬ badSum → ¬ badCount → exec .validate s = .next { s with stage := 0x2 }))

/-- R91, R92: NORMALIZE writes NUM_SAMPLES, DURATION and REPEAT_FREQ_EFF, and goes to INIT. -/
def Obligations.NormalizeWritesTheDerivedResults : Prop :=
  ∀ s : State,
    let n := fint (fmax (freal 1) (fceil (fmul s.p[0] (fadd (fadd s.p[1] s.p[2]) s.p[3]))))
    let d := fdiv (freal n.toNat) s.p[0]
    let m := fdiv (freal 1) d
    exec .normalize s = .next
      { s with
        numSamples := n, duration := d, repeatFreqEff := if flt s.p[11] m then m else s.p[11], stage := 0x3 }

/-- R90, R91: for a valid parameter set, NUM_SAMPLES is the larger of 1 and the real ceiling of the rounded product, and
it fits the buffer. -/
def Obligations.SampleCountIsTheCeilingOfTheProduct : Prop :=
  ∀ s : State, s.inst.legal = true → s.validationError = none →
    ∃ t, exec .normalize s = .next t ∧
      (t.numSamples.toNat : ℤ) = max 1 ⌈f64Value (fmul s.p[0] (fadd (fadd s.p[1] s.p[2]) s.p[3]))⌉ ∧
        1 ≤ t.numSamples.toNat ∧ t.numSamples.toNat ≤ s.inst.maxSamples

/-- R94: INIT sets the synthesis state to its initial values, computes S.A0, clears the peak and the index, and goes to
the first stage of the phase order. -/
def Obligations.InitClearsTheSynthesisState : Prop :=
  ∀ s, exec .init s = .next
    { s with
      phase := 0, pink := Vector.replicate 7 0, brown := 0, draws := 0
      lpfY := 0, hpfX := 0, hpfY := 0, s := 0, f := 0
      a0 := if s.p[18].toNat ≤ 6 then fdiv (freal 1) (harmonicSum s.p[16].toNat s.p[17]) else 0
      maxSample := 0, i := 0
      stage := if s.inst.phaseOrder = .sourceThenAdvance then 0x4 else 0x5 }

/-! ### The sample source -/

/-- R67, R100: SOURCE runs the one source operation P.waveform names, and then goes to Next(SOURCE). That a source
operation alone leaves S.stage is the model's reading of R100 (log entry 14). -/
def Obligations.SourceRunsTheTaggedOperation : Prop :=
  ∀ (s : State) i, decodeWaveform s.p[18] = .ok i →
    ∃ u, exec i s = .next u ∧
      exec .source s = .next { u with stage := if s.inst.phaseOrder = .sourceThenAdvance then 0x5 else 0x6 }

/-- R114, R116 with R118 to R121 and R124: triangle, sawtooth, square and breaker sum their shape over the harmonics, in
ascending order, with the amplitude chain that starts at S.A0; S.s is all they change. -/
def Obligations.AlgebraicOscillatorsSumTheirHarmonics : Prop :=
  ∀ s : State,
    let q := fun p => if fle (freal 1) (fadd p fSqrt075) then fsub (fadd p fSqrt075) (freal 1) else fadd p fSqrt075
    let duty := fdiv (fadd s.p[19] (fmul (fdiv (freal s.i.toNat) (freal s.numSamples.toNat)) s.p[20])) (freal 100)
    ∀ i shape, (i, shape) ∈ ([
        (.srcTriangle, fun p =>
          if flt p (flit 1 4) then fmul (freal 4) p
          else if flt p (flit 3 4) then fsub (freal 2) (fmul (freal 4) p) else fsub (fmul (freal 4) p) (freal 4)),
        (.srcSawtooth, fun p => if flt p (flit 1 2) then fmul (freal 2) p else fsub (fmul (freal 2) p) (freal 2)),
        (.srcSquare, fun p => if flt p duty then freal 1 else fneg (freal 1)),
        (.srcBreaker, fun p =>
          fadd (fneg (freal 1)) (fmul (freal 2) (fabs (fsub (freal 1) (fmul (freal 2) (fmul (q p) (q p)))))))] :
        List (Instr × (F64 → F64))) →
      ∀ acc amp : Nat → F64, acc 0 = 0 → amp 0 = s.a0 →
        (∀ h, acc (h + 1) = fadd (acc h) (fmul (amp h) (shape (ffrac (fmul s.phase (freal (h + 1))))))) →
          (∀ h, amp (h + 1) = fmul (amp h) s.p[17]) → exec i s = .next { s with s := acc (s.p[16].toNat + 1) }

/-- R114, R116 with R117, R122 and R123: sine, tangent and whistle sum their shape in the same way, for whatever
functions NUMERICS holds. -/
def Obligations.NumericOscillatorsSumTheirHarmonics : Prop :=
  ∀ (s : State) i shape, (i, shape) ∈ ([
      (.srcSine, fun p => Config.sin (fmul (fmul (freal 2) fPI) p)),
      (.srcTangent, fun p => fclamp (fneg (freal 2)) (freal 2) (fmul (flit 3 10) (Config.tan (fmul fPI p)))),
      (.srcWhistle, fun p =>
        fadd (fmul (flit 3 4) (Config.sin (fmul (fmul (freal 2) fPI) p)))
          (fmul (flit 1 4) (Config.sin (fmul (fmul (freal 40) fPI) p))))] : List (Instr × (F64 → F64))) →
    ∀ acc amp : Nat → F64, acc 0 = 0 → amp 0 = s.a0 →
      (∀ h, acc (h + 1) = fadd (acc h) (fmul (amp h) (shape (ffrac (fmul s.phase (freal (h + 1))))))) →
        (∀ h, amp (h + 1) = fmul (amp h) s.p[17]) → exec i s = .next { s with s := acc (s.p[16].toNat + 1) }

/-- R118, R119: on every phase in [0, 1] the triangle and the sawtooth are exactly the source's linear pieces. -/
def Obligations.TriangleAndSawtoothAreExactlyLinear : Prop :=
  ∀ p, ffinite p = true → 0 ≤ f64Value p → f64Value p ≤ 1 →
    (ffinite (shapeTriangle p) = true ∧
        f64Value (shapeTriangle p) =
          if f64Value p < 1 / 4 then 4 * f64Value p
          else if f64Value p < 3 / 4 then 2 - 4 * f64Value p else 4 * f64Value p - 4) ∧
      ffinite (shapeSawtooth p) = true ∧
        f64Value (shapeSawtooth p) = if f64Value p < 1 / 2 then 2 * f64Value p else 2 * f64Value p - 2

/-- R108, R16: white noise is the next value of the stream, which lies in [-1, 1]; S.draws counts it. -/
def Obligations.WhiteNoiseIsTheNextDraw : Prop :=
  ∀ s, exec .srcWhitenoise s = .next { s with s := prngStream s.draws.toNat, draws := s.draws + 1 } ∧
    ffinite (prngStream s.draws.toNat) = true ∧ -1 ≤ f64Value (prngStream s.draws.toNat) ∧
      f64Value (prngStream s.draws.toNat) ≤ 1

/-- R109, R110, R111: the pink filter bank, with its coefficients and the order of its sum. -/
def Obligations.PinkNoiseRunsItsFilterBank : Prop :=
  ∀ s : State,
    let w := prngStream s.draws.toNat
    let sgn := if s.inst.pinkB5Sign = .minus then fneg (freal 1) else freal 1
    let t0 := fadd (fmul (flit 99886 100000) s.pink[0]) (fmul w (flit 555179 10000000))
    let t1 := fadd (fmul (flit 99332 100000) s.pink[1]) (fmul w (flit 750759 10000000))
    let t2 := fadd (fmul (flit 96900 100000) s.pink[2]) (fmul w (flit 1538520 10000000))
    let t3 := fadd (fmul (flit 86650 100000) s.pink[3]) (fmul w (flit 3104856 10000000))
    let t4 := fadd (fmul (flit 55000 100000) s.pink[4]) (fmul w (flit 5329522 10000000))
    let t5 := fadd (fmul (fneg (flit 7616 10000)) s.pink[5]) (fmul sgn (fmul w (flit 168980 10000000)))
    let total := fadd (fadd (fadd (fadd (fadd (fadd (fadd t0 t1) t2) t3) t4) t5) s.pink[6]) (fmul w (flit 5362 10000))
    exec .srcPinknoise s = .next
      { s with
        s := fdiv total (freal 7)
        pink := #v[t0, t1, t2, t3, t4, t5, fmul w (flit 115926 1000000)]
        draws := s.draws + 1 }

/-- R112, R113: brown noise is the clamped walk, its clamped value persists, and the walk stays in [-1, 1]. -/
def Obligations.BrownNoiseWalksWithinTheUnit : Prop :=
  ∀ s : State, ∃ t, exec .srcBrownnoise s = .next t ∧
    (let b := fclamp (fneg (freal 1)) (freal 1) (fadd s.brown (fmul (flit 1 10) (prngStream s.draws.toNat)))
     t = { s with brown := b, s := b, draws := s.draws + 1 }) ∧
      (s.brownOk → t.brownOk)

/-! ### The per-sample stages -/

/-- R127 to R130: FREQ computes the instantaneous frequency and advances the phase by it. -/
def Obligations.FreqComputesTheFrequencyAndAdvancesThePhase : Prop :=
  ∀ s : State,
    let t := fdiv (freal s.i.toNat) s.p[0]
    let r := ffrac (fmul t s.repeatFreqEff)
    let f0 := fadd (fadd s.p[8] (fmul r s.p[9])) (fmul (fmul r r) s.p[10])
    let f1 := if flt (fdiv s.p[12] (freal 100)) r then fmul f0 (fadd (freal 1) (fdiv s.p[14] (freal 100))) else f0
    let f2 := if flt (fdiv s.p[13] (freal 100)) r then fmul f1 (fadd (freal 1) (fdiv s.p[15] (freal 100))) else f1
    let vib := fsub (freal 1) (fmul s.p[6]
      (fsub (flit 1 2) (fmul (flit 1 2) (Config.sin (fmul (fmul (fmul (freal 2) fPI) t) s.p[7])))))
    let f := fadd f2 vib
    exec .freq s = .next
      { s with
        f := f, phase := ffrac (fadd s.phase (fdiv f s.p[0]))
        stage := if s.inst.phaseOrder = .sourceThenAdvance then 0x6 else 0x4 }

/-- R13: frac is x - floor(x); of a finite value it lies in the closed interval [0, 1], and 1.0 is one of its values. -/
def Obligations.FracLiesInTheClosedUnitInterval : Prop :=
  (∀ x, ffrac x = fsub x (ffloor x)) ∧
    (∀ x, ffinite x = true → ffinite (ffrac x) = true ∧ 0 ≤ f64Value (ffrac x) ∧ f64Value (ffrac x) ≤ 1) ∧
      ffrac (fneg (flit 1 100000000000000000000)) = freal 1 ∧ ffrac 0x8000000000000000 = 0

/-- R134: TREMOLO scales the sample by its cosine gain. -/
def Obligations.TremoloScalesTheSample : Prop :=
  ∀ s : State,
    let t := fdiv (freal s.i.toNat) s.p[0]
    let c := Config.cos (fmul (fmul (fmul (freal 2) fPI) t) s.p[5])
    exec .tremolo s = .next
      { s with
        s := fmul s.s (fsub (freal 1) (fmul (fdiv s.p[4] (freal 100)) (fadd (flit 1 2) (fmul (flit 1 2) c))))
        stage := 0x7 }

/-- R134 (its corner cases): at depth 0 the gain is exactly 1 for every finite cosine, so that a sample passes with its
bits unchanged; at depth 100 and cosine 1 the gain is exactly 0. -/
def Obligations.TremoloGainAtItsExtremes : Prop :=
  (∀ depth c, ffinite depth = true → f64Value depth = 0 → ffinite c = true → tremoloGainOf depth c = freal 1) ∧
    (∀ x, fisNaN x = false → fmul x (freal 1) = x) ∧ tremoloGainOf (freal 100) (freal 1) = 0

/-- R135: for a finite positive sample rate that halves exactly, the normalized angular frequency of finite cutoff
parameters lies in [0, PI/2]. The premise on the exponent leaves out the subnormal sample rates, where R135's "is exact"
does not hold (log entry 20). -/
def Obligations.CutoffFrequencyLiesInItsRange : Prop :=
  ∀ (s : State) (b w : F64), ffinite s.p[0] = true → (0 : ℚ) < f64Value s.p[0] → 2 ≤ f64Exp s.p[0] →
    1 ≤ s.numSamples.toNat → ffinite b = true → ffinite w = true →
      ffinite (s.wc b w) = true ∧ 0 ≤ f64Value (s.wc b w) ∧ f64Value (s.wc b w) ≤ f64Value fPI / 2

/-- R135, R136, R137: LPF filters with the coefficient of this sample's cutoff, and keeps its output. -/
def Obligations.LpfFiltersWithThisSamplesCoefficient : Prop :=
  ∀ s : State,
    let fraction := fdiv (freal s.i.toNat) (freal s.numSamples.toNat)
    let cutoff := fclamp 0 (fdiv s.p[0] (freal 2)) (fadd s.p[21] (fmul fraction s.p[22]))
    let c := Config.cos (fmul (fdiv cutoff s.p[0]) fPI)
    let a := fdiv (fsub (freal 1) (fsqrt (fsub (freal 1) (fmul c c)))) c
    let al := if fle c 0 then freal 1 else fsub (freal 1) a
    let y := fadd (fmul al s.s) (fmul (fsub (freal 1) al) s.lpfY)
    exec .lpf s = .next { s with lpfY := y, s := y, stage := 0x8 }

/-- R135, R138, R139, R140: HPF filters with the coefficient of this sample's cutoff, and keeps its input and output. -/
def Obligations.HpfFiltersWithThisSamplesCoefficient : Prop :=
  ∀ s : State,
    let fraction := fdiv (freal s.i.toNat) (freal s.numSamples.toNat)
    let cutoff := fclamp 0 (fdiv s.p[0] (freal 2)) (fadd s.p[23] (fmul fraction s.p[24]))
    let wc := fmul (fdiv cutoff s.p[0]) fPI
    let al := if fle (Config.cos wc) 0 then 0 else fdiv (fsub (freal 1) (Config.sin wc)) (Config.cos wc)
    let y := fmul al (fadd (fsub s.hpfY s.hpfX) s.s)
    exec .hpf s = .next { s with hpfX := s.s, hpfY := y, s := y, stage := 0x9 }

/-- R142: with coefficient 1 the low-pass passes its input when its memory is finite, and the high-pass when its two
memories agree; a negative zero becomes a positive one. -/
def Obligations.FiltersPassTheSignalAtCoefficientOne : Prop :=
  (∀ x y, fisNaN x = false → x ≠ 0x8000000000000000 → ffinite y = true →
      lpfRecurrence (freal 1) x y = x ∧ hpfRecurrence (freal 1) x y y = x) ∧
    ∀ y, ffinite y = true → (fsign y = false → lpfRecurrence (freal 1) 0x8000000000000000 y = 0) ∧
      hpfRecurrence (freal 1) 0x8000000000000000 y y = 0

/-- R144, R145, R146: ENVELOPE applies the attack ramp, the decay ramp or neither; a gain of 1 leaves the sample. -/
def Obligations.EnvelopeAppliesItsGain : Prop :=
  ∀ s : State,
    let t := fdiv (freal s.i.toNat) s.p[0]
    let g :=
      if flt t s.p[1] then fdiv t s.p[1]
      else if flt (fadd s.p[1] s.p[2]) t = true ∧ feq s.p[3] 0 = false then
        fsub (freal 1) (fdiv (fsub (fsub t s.p[1]) s.p[2]) s.p[3])
      else freal 1
    exec .envelope s = .next { s with s := if feq g (freal 1) then s.s else fmul s.s g, stage := 0xA }

/-- R145, R147: with attack > 0 a finite sample at index 0 leaves the envelope as a zero; with attack = decay = 0 every
sample leaves it unchanged. -/
def Obligations.EnvelopeBoundaries : Prop :=
  (∀ s : State, ffinite s.p[0] = true → (0 : ℚ) < f64Value s.p[0] → ffinite s.p[1] = true → (0 : ℚ) < f64Value s.p[1] →
      s.i = 0 → ffinite s.s = true → ∃ x, exec .envelope s = .next { s with s := x, stage := 0xA } ∧
        ffinite x = true ∧ f64Value x = 0) ∧
    ∀ s : State, ffinite s.p[0] = true → (0 : ℚ) < f64Value s.p[0] → ffinite s.p[1] = true → f64Value s.p[1] = (0 : ℚ) →
      ffinite s.p[3] = true → f64Value s.p[3] = (0 : ℚ) → exec .envelope s = .next { s with stage := 0xA }

/-- R148: COMPRESS is sign(s) * pow(|s|, compression). -/
def Obligations.CompressIsASignPreservingPower : Prop :=
  ∀ s : State,
    let sgn := if flt 0 s.s then freal 1 else if flt s.s 0 then fneg (freal 1) else 0
    exec .compress s = .next
      { s with s := fmul sgn (Config.pow (s.s &&& 0x7FFFFFFFFFFFFFFF) s.p[25]), stage := 0xB }

/-! ### The post-processor -/

/-- R152, R96: STORE_PEAK stores the sample as binary32 at entry S.i, takes the peak over the stored value, and moves to
the next sample or to pass 2. Every byte outside the entry's four reads as before. -/
def Obligations.StorePeakStoresTheSampleAndTracksThePeak : Prop :=
  ∀ s : State, Memory.wf s.sb = true → s.i.toNat < s.inst.maxSamples →
    ∃ sb' : Memory,
      loadEntry sb' s.i.toNat = f32OfF64 s.s ∧
        (∀ a, a < entryAddr s.i.toNat ∨ entryAddr s.i.toNat + 4 ≤ a → Memory.read sb' a = Memory.read s.sb a) ∧
          (let m := f64OfF32 (f32OfF64 s.s) &&& 0x7FFFFFFFFFFFFFFF
           let peak := if flt s.maxSample m then m else s.maxSample
           exec .storePeak s = .next
            (if s.i.toNat + 1 < s.numSamples.toNat then
              { s with
                sb := sb', maxSample := peak, i := s.i + 1
                stage := if s.inst.phaseOrder = .sourceThenAdvance then 0x4 else 0x5 }
            else { s with sb := sb', maxSample := peak, i := 0, stage := 0xC }))

/-- R153, R154, R96, R97: SCALE multiplies entry S.i by the factor, and moves to the next entry or ends the render. Every
byte outside the entry's four reads as before. RENDER_CYCLES takes a free value (R170, log entry 6). -/
def Obligations.ScaleMultipliesTheEntryByTheFactor : Prop :=
  ∀ s : State, Memory.wf s.sb = true → s.i.toNat < s.inst.maxSamples →
    ∃ sb' : Memory,
      (let g := fdiv s.p[27] (freal 100)
       let factor := if s.p[26] = 1 ∧ feq s.maxSample 0 = false then fdiv g s.maxSample else g
       loadEntry sb' s.i.toNat = f32OfF64 (fmul (f64OfF32 (loadEntry s.sb s.i.toNat)) factor)) ∧
        (∀ a, a < entryAddr s.i.toNat ∨ entryAddr s.i.toNat + 4 ≤ a → Memory.read sb' a = Memory.read s.sb a) ∧
          exec .scale s = .next
            (if s.i.toNat + 1 < s.numSamples.toNat then { s with sb := sb', i := s.i + 1, stage := 0xC }
            else
              { s with
                sb := sb', renderCycles := Config.renderCyclesFn s.renders, busy := false, done := true
                stage := 0x0 })

/-- R99, R154, R157: pass 2, from its first entry, scales each of the NUM_SAMPLES entries exactly once by the one factor,
leaves every other byte, and ends the render. RENDER_CYCLES takes a free value (R170, log entry 6). -/
def Obligations.PassTwoScalesEveryEntryOnce : Prop :=
  ∀ s : State, Memory.wf s.sb = true → s.agenda = [] → s.stage = 0xC → s.i = 0 → 1 ≤ s.numSamples.toNat →
    s.numSamples.toNat ≤ s.inst.maxSamples →
      ∃ t, runSteps s.numSamples.toNat s = .next t ∧
        (∀ j, j < s.numSamples.toNat →
          loadEntry t.sb j = f32OfF64 (fmul (f64OfF32 (loadEntry s.sb j)) s.factor)) ∧
          (∀ a, a < 0x1000 ∨ 0x1000 + 4 * s.numSamples.toNat ≤ a → Memory.read t.sb a = Memory.read s.sb a) ∧
            t = { s with
                  sb := t.sb, i := t.i, stage := 0x0, busy := false, done := true
                  renderCycles := Config.renderCyclesFn s.renders } ∧
              t.i.toNat + 1 = s.numSamples.toNat

/-- R29, R152: every step keeps that MAX_SAMPLE bounds the magnitudes stored so far in pass 1. -/
def Obligations.PeakBoundsEveryStoredSample : Prop :=
  ∀ s t, s.Inv → s.peakBoundsStored → step s = .next t → t.peakBoundsStored

/-! ### The bus -/

/-- R21 to R33, R47, R50: RD64 of each register's offset returns that register, and of 0x100 + 8·k the word P[k]; it
changes nothing but the word the host gets, which the model keeps in a field of its own (log entry 2). -/
def Obligations.RegistersReadAtTheirOffsets : Prop :=
  ∀ s : State,
    (∀ a v, (a, v) ∈ ([(0x000, 0x4A46585200000007), (0x008, 0), (0x010, s.statusWord), (0x018, s.errInfo),
        (0x020, s.numSamples), (0x028, s.duration), (0x030, s.repeatFreqEff), (0x038, s.maxSample),
        (0x040, 0x3CF78BA3), (0x048, s.i), (0x050, s.renderCycles), (0x058, BitVec.ofNat 64 s.inst.maxSamples),
        (0x060, BitVec.ofNat 64 s.inst.maxHarmonics)] : List (Nat × Word)) →
      exec (.rd64 a) s = .next { s with hostData := v }) ∧
      ∀ k : Fin 28, exec (.rd64 (0x100 + 8 * k.val)) s = .next { s with hostData := s.p[k] }

/-- R23: the layout of STATUS. -/
def Obligations.StatusWordHasItsLayout : Prop :=
  ∀ s : State,
    s.statusWord.getLsbD 0 = s.busy ∧ s.statusWord.getLsbD 1 = s.done ∧ s.statusWord.getLsbD 2 = s.error ∧
      s.statusWord.getLsbD 3 = s.accessErr ∧ s.statusWord.getLsbD 4 = s.ignored ∧
        s.statusWord.extractLsb' 5 3 = 0 ∧ s.statusWord.extractLsb' 8 4 = s.stage ∧
          s.statusWord.extractLsb' 12 52 = 0

/-- R52: an entry at or past NUM_SAMPLES reads 0; while BUSY an entry reads a free word (log entry 7); else it
reads SB[i]. -/
def Obligations.SampleWindowReadsTheEntry : Prop :=
  ∀ (s : State) (i : Nat), i < s.inst.maxSamples →
    exec (.rd32 (0x1000 + 4 * i)) s = .next
      { s with
        hostData := BitVec.setWidth 64
          (if s.numSamples.toNat ≤ i then 0
          else if s.busy = true then Config.busyWindowWord s.renders s.stage s.i i else loadEntry s.sb i) }

/-- R49, R51, R53: an access of the wrong size or alignment, at a reserved offset, or a write to a read-only place
changes no state but ACCESS_ERR; a read of that kind returns 0. A 4-byte write is always one (R72). -/
def Obligations.IllegalAccessesOnlySetAccessErr : Prop :=
  ∀ (s : State) (a : Nat), a < s.aperture →
    (¬ (a % 8 = 0 ∧ (a ≤ 0x060 ∨ (0x100 ≤ a ∧ a ≤ 0x1DF))) →
        exec (.rd64 a) s = .next { s with accessErr := true, hostData := 0 }) ∧
      (¬ (a % 4 = 0 ∧ 0x1000 ≤ a) → exec (.rd32 a) s = .next { s with accessErr := true, hostData := 0 }) ∧
        (∀ v, exec (.wr32 a v) s = .next { s with accessErr := true }) ∧
          ∀ v, ¬ (a % 8 = 0 ∧ (a = 0x008 ∨ (0x100 ≤ a ∧ a ≤ 0x1DF))) →
            exec (.wr64 a v) s = .next { s with accessErr := true }

/-- R24, R51, R183: a parameter write while not BUSY stores the word verbatim, in that register alone, and the next read
returns it; while BUSY it only sets IGNORED. -/
def Obligations.ParameterWritesAreStoredVerbatim : Prop :=
  ∀ (s : State) (k : Fin 28) (v : Word),
    (s.busy = true → exec (.wr64 (0x100 + 8 * k.val) v) s = .next { s with ignored := true }) ∧
      (s.busy = false → ∃ t, exec (.wr64 (0x100 + 8 * k.val) v) s = .next t ∧ t = { s with p := t.p } ∧
        t.p[k] = v ∧ (∀ j : Fin 28, j ≠ k → t.p[j] = s.p[j]) ∧
          exec (.rd64 (0x100 + 8 * k.val)) t = .next { t with hostData := v })

/-- R50: reads are idempotent: a read done again at once gives the same word and changes nothing. That this holds of
the window read while BUSY too is the model's choice (log entry 7). -/
def Obligations.ReadsAreIdempotent : Prop :=
  ∀ (s : State) (a : Nat), a < s.aperture →
    (∃ t, exec (.rd32 a) s = .next t ∧ exec (.rd32 a) t = .next t) ∧
      ∃ t, exec (.rd64 a) s = .next t ∧ exec (.rd64 a) t = .next t

/-! ### The whole machine -/

/-- R178 with R23, R25, R113, R132, R152: the reset state satisfies the machine's invariant and the bound of the peak. -/
def Obligations.ResetSatisfiesTheInvariant : Prop := State.reset.Inv ∧ State.reset.peakBoundsStored

/-- R23, R25, R42, R55, R88, R90, R113, R132, R152, R184: every step keeps the machine's invariant. -/
def Obligations.EveryStepKeepsTheInvariant : Prop := ∀ s t : State, s.Inv → step s = .next t → t.Inv

/-- R85, R104, R105: from a state of the invariant no step stops, whatever the host does inside the aperture. -/
def Obligations.NoReachableStepStops : Prop :=
  ∀ s : State, s.Inv →
    (∀ r l, s.agenda = .host r :: l → s.inst.base ≤ r.addr ∧ r.addr < s.inst.base + s.aperture) →
      ∃ t, step s = .next t

/-- R104: a render that passes validation takes exactly 3 + 9·N engine steps, with N = NUM_SAMPLES: it is BUSY before
each of them and DONE after the last. The run is the engine's alone (no host turn between its steps, log entry 2). -/
def Obligations.ARenderTakesExactlyThreePlusNineNSteps : Prop :=
  ∀ s : State, s.inst.legal = true → s.renderPending → s.validationError = none →
    (∀ m, m < 3 + 9 * s.count.toNat → ∃ u, runSteps m s = .next u ∧ u.busy = true) ∧
      ∃ t, runSteps (3 + 9 * s.count.toNat) s = .next t ∧ t.busy = false ∧ t.done = true ∧ t.stage = 0x0 ∧
        t.numSamples = s.count ∧ t.i.toNat + 1 = s.count.toNat ∧ t.p = s.p

/-- R103: two renders of one parameter set by one instance leave the same results and samples, whatever the two states
held before. The runs are the engine's alone (no host turn between its steps, log entry 2). -/
def Obligations.RendersAreDeterministic : Prop :=
  ∀ s₁ s₂ : State, s₁.inst = s₂.inst → s₁.p = s₂.p → s₁.inst.legal = true → s₁.renderPending → s₂.renderPending →
    Memory.wf s₁.sb = true → Memory.wf s₂.sb = true → s₁.validationError = none →
      ∃ t₁ t₂, runSteps (3 + 9 * s₁.count.toNat) s₁ = .next t₁ ∧ runSteps (3 + 9 * s₁.count.toNat) s₂ = .next t₂ ∧
        t₁.numSamples = t₂.numSamples ∧ t₁.duration = t₂.duration ∧ t₁.repeatFreqEff = t₂.repeatFreqEff ∧
          t₁.maxSample = t₂.maxSample ∧ ∀ j, j < s₁.count.toNat → loadEntry t₁.sb j = loadEntry t₂.sb j

/-- R20, R183: the engine never writes a parameter register, and while BUSY nothing but RESET does. -/
def Obligations.ParametersAreConstantDuringARender : Prop :=
  (∀ s t : State, s.engineTurn → step s = .next t → t.p = s.p) ∧
    ∀ s t : State, s.busy = true → ¬ s.commandTurn 0x1 → step s = .next t → t.p = s.p

/-- R54, R80, R183, R184: while BUSY, a host transaction other than RESET changes nothing a stage reads: at most the
sticky flags and the word the host gets. -/
def Obligations.TheHostCannotDisturbARender : Prop :=
  ∀ (s t : State) (r : BusRequest), s.busy = true → s.hostTurn r → ¬ s.commandTurn 0x1 → step s = .next t →
    t = { s with
          agenda := s.agenda.tail, hostData := t.hostData, accessErr := t.accessErr, ignored := t.ignored }

/-- R57, R188: once a render has ended, its results and samples stay until the host writes START or RESET. -/
def Obligations.ResultsStayUntilStartOrReset : Prop :=
  ∀ s t : State, s.statusCoherent → s.busy = false → ¬ s.commandTurn 0x1 → ¬ s.commandTurn 0x2 → step s = .next t →
    t.busy = false ∧ t.numSamples = s.numSamples ∧ t.duration = s.duration ∧ t.repeatFreqEff = s.repeatFreqEff ∧
      t.maxSample = s.maxSample ∧ t.renderCycles = s.renderCycles ∧ t.sb = s.sb

/-- R23, R53: ACCESS_ERR and IGNORED are sticky: no step but a RESET clears one. -/
def Obligations.StickyFlagsAreClearedOnlyByReset : Prop :=
  ∀ s t : State, ¬ s.commandTurn 0x1 → step s = .next t →
    (s.accessErr = true → t.accessErr = true) ∧ (s.ignored = true → t.ignored = true)

/-- R105: an error arises only in VALIDATE, as INVALID_PARAMETER, or at a CMD write, as ILLEGAL_COMMAND. -/
def Obligations.ErrorsAriseOnlyInValidateOrAtCmd : Prop :=
  ∀ s t : State, s.error = false → step s = .next t → t.error = true →
    (s.engineTurn ∧ s.stage = 0x1 ∧ t.errInfo.toNat % 2 ^ 8 = 2) ∨
      (s.busy = false ∧ t.errInfo = 0xFF03 ∧ ∃ v, s.commandTurn v ∧ v ≠ 0x0 ∧ v ≠ 0x1 ∧ v ≠ 0x2)

/-- R26, R52, R106: after a failed START every entry of the window reads 0. -/
def Obligations.AFailedRenderShowsNoSample : Prop :=
  ∀ s : State, s.Inv → s.error = true → s.errInfo.toNat % 2 ^ 8 = 2 →
    ∀ i, i < s.inst.maxSamples → exec (.rd32 (0x1000 + 4 * i)) s = .next { s with hostData := 0 }

/-! ### Arithmetic -/

/-- R8, R12: sums, differences, products, quotients and decimal literals are the exact real results rounded once with
roundTiesToEven. -/
def Obligations.BasicArithmeticIsCorrectlyRounded : Prop :=
  (∀ a b, ffinite a = true → ffinite b = true →
      RoundsTo ((f64Value a + f64Value b : ℚ) : ℝ) (fadd a b) ∧
        RoundsTo ((f64Value a - f64Value b : ℚ) : ℝ) (fsub a b) ∧
          RoundsTo ((f64Value a * f64Value b : ℚ) : ℝ) (fmul a b) ∧
            (f64Value b ≠ 0 → RoundsTo ((f64Value a / f64Value b : ℚ) : ℝ) (fdiv a b))) ∧
    ∀ n d : Nat, 0 < d → RoundsTo (((n : ℚ) / (d : ℚ) : ℚ) : ℝ) (flit n d)

/-- R8: the square root is correctly rounded. -/
def Obligations.SquareRootIsCorrectlyRounded : Prop :=
  ∀ x, ffinite x = true → 0 ≤ f64Value x → RoundsTo (Real.sqrt ((f64Value x : ℚ) : ℝ)) (fsqrt x)

/-- R8: floor and ceil are exact, and keep the sign of their operand. -/
def Obligations.FloorAndCeilAreExact : Prop :=
  ∀ x, ffinite x = true →
    ffinite (ffloor x) = true ∧ f64Value (ffloor x) = (⌊f64Value x⌋ : ℚ) ∧ fsign (ffloor x) = fsign x ∧
      ffinite (fceil x) = true ∧ f64Value (fceil x) = (⌈f64Value x⌉ : ℚ) ∧ fsign (fceil x) = fsign x

/-- R11: f32 rounds once with roundTiesToEven, f64 is exact, and NaNs and infinities stay what they are. That the
exact widening of a NaN keeps its sign and its fraction's bits is the model's reading (log entry 8). -/
def Obligations.ConversionsToAndFromBinary32 : Prop :=
  (∀ v, ffinite v = true → RoundsTo32 ((f64Value v : ℚ) : ℝ) (f32OfF64 v)) ∧
    (∀ w, f32Finite w = true → ffinite (f64OfF32 w) = true ∧ f64Value (f64OfF32 w) = f32Value w) ∧
      (∀ w, f32Finite w = false →
        fsign (f64OfF32 w) = w.getLsbD 31 ∧ f64Exp (f64OfF32 w) = 2047 ∧
          f64Frac (f64OfF32 w) = w.toNat % 2 ^ 23 * 2 ^ 29) ∧
        (∀ v, fisNaN v = true → fisNaN (f64OfF32 (f32OfF64 v)) = true) ∧
          ∀ v, fisInf v = true → f64OfF32 (f32OfF64 v) = v

/-- R8: the comparisons of finite values are those of the reals, and each is false with a NaN. -/
def Obligations.ComparisonsAreThoseOfTheReals : Prop :=
  (∀ a b, ffinite a = true → ffinite b = true →
      (flt a b = true ↔ f64Value a < f64Value b) ∧ (fle a b = true ↔ f64Value a ≤ f64Value b) ∧
        (feq a b = true ↔ f64Value a = f64Value b)) ∧
    ∀ a b, (fisNaN a = true ∨ fisNaN b = true) → flt a b = false ∧ fle a b = false ∧ feq a b = false

/-! ### Values that are not finite -/

/-- R130, R165: a frequency that is not finite makes the phase a NaN, and a NaN phase stays one and makes every triangle,
sawtooth and breaker sample a NaN. The square's comparison is false of a NaN phase, so its shape is -1 throughout: there
R130's "every later oscillator sample is then NaN" and R120 with R8 clash, and the model follows R120 (log entry 25). What
sine, tangent and whistle make of a NaN is NUMERICS' (R10). -/
def Obligations.NonFiniteFrequencyReachesTheSamples : Prop :=
  (∀ s : State, ∃ t, exec .freq s = .next t ∧
      (ffinite t.f = false ∨ fisNaN s.phase = true → fisNaN t.phase = true)) ∧
    ∀ s : State, fisNaN s.phase = true →
      (∀ i ∈ [Instr.srcTriangle, Instr.srcSawtooth, Instr.srcBreaker], ∃ t, exec i s = .next t ∧ fisNaN t.s = true) ∧
        ∀ acc amp : Nat → F64, acc 0 = 0 → amp 0 = s.a0 →
          (∀ h, acc (h + 1) = fadd (acc h) (fmul (amp h) (fneg (freal 1)))) →
            (∀ h, amp (h + 1) = fmul (amp h) s.p[17]) →
              exec .srcSquare s = .next { s with s := acc (s.p[16].toNat + 1) }
end

