-- ==== Sys2Proof/Laws/Float.lean ====
section
/-!
SUPPORT. The small facts of the float definitions: rounding never passes the infinity, a rounded value is never a NaN,
and a value is compared with 0 and 1 through the integer of units of 2^-1074 behind it.
-/

namespace Sys2Proof.Machine

theorem roundMag_le (p infBits n d : Nat) : roundMag p infBits n d ≤ infBits := by
  unfold roundMag
  simp only
  split <;> omega

/-- An operation's NaN is a NaN, whichever pattern it has (R8). -/
theorem fisNaN_f64NaNOf (w : F64) : fisNaN (f64NaNOf w) = true := by
  have key : ∀ (m : Nat) (x y : BitVec 64), (x ||| y).getLsbD m = (x.getLsbD m || y.getLsbD m) := fun m x y => by simp
  have hfrac : ∀ x : F64, f64Frac x = (x.setWidth 52).toNat := fun x => by simp [f64Frac]
  have hexp : ∀ x : F64, f64Exp x = (x.extractLsb' 52 11).toNat := fun x => by
    simp [f64Exp, BitVec.extractLsb'_toNat, Nat.shiftRight_eq_div_pow]
  have expOnes : ∀ (y : F64), y.extractLsb' 52 11 = 0x7FF#11 → (w ||| y).extractLsb' 52 11 = 0x7FF#11 := by
    intro y hy
    rw [BitVec.extractLsb'_or, hy]
    apply BitVec.eq_of_getLsbD_eq
    intro k hk
    rw [BitVec.getLsbD_or]
    have : (0x7FF#11).getLsbD k = true := by
      have : ∀ k : Fin 11, (0x7FF#11).getLsbD k = true := by decide
      exact this ⟨k, hk⟩
    simp [this]
  unfold fisNaN f64NaNOf
  split
  · have h1 : (w ||| 0x7FF0000000000001#64).extractLsb' 52 11 = 0x7FF#11 := expOnes _ (by decide)
    have h2 : f64Frac (w ||| 0x7FF0000000000001#64) ≠ 0 := by
      rw [hfrac]
      intro h
      simp at h
    simp only [hexp, h1, Bool.and_eq_true, bne_iff_ne, ne_eq]
    exact ⟨by decide, h2⟩
  · rename_i hw
    have h1 : (w ||| 0x7FF0000000000000#64).extractLsb' 52 11 = 0x7FF#11 := expOnes _ (by decide)
    have h2 : (w ||| 0x7FF0000000000000#64).setWidth 52 = w.setWidth 52 := by
      rw [BitVec.setWidth_or]
      simp
    have h3 : f64Frac (w ||| 0x7FF0000000000000#64) ≠ 0 := by
      rw [hfrac, h2, ← hfrac]
      exact hw
    simp only [hexp, h1, Bool.and_eq_true, bne_iff_ne, ne_eq]
    exact ⟨by decide, h3⟩

@[simp] theorem fisNaN_fnan (op : Nat) (a b : F64) : fisNaN (fnan op a b) = true := fisNaN_f64NaNOf _

/-- A NaN operand of a sum gives a NaN (R8). -/
theorem fisNaN_fadd {a b : F64} (h : fisNaN a = true ∨ fisNaN b = true) : fisNaN (fadd a b) = true := by
  have : (fisNaN a || fisNaN b) = true := by simpa using h
  simp [fadd, this]

/-- A NaN operand of a product gives a NaN (R8). -/
theorem fisNaN_fmul {a b : F64} (h : fisNaN a = true ∨ fisNaN b = true) : fisNaN (fmul a b) = true := by
  have : (fisNaN a || fisNaN b) = true := by simpa using h
  simp [fmul, this]

/-- A value that is not finite is a NaN or an infinity. -/
theorem ffinite_eq_false_iff (x : F64) : ffinite x = false ↔ fisNaN x = true ∨ fisInf x = true := by
  by_cases h : f64Frac x = 0 <;> simp [ffinite, fisNaN, fisInf, h]

/-- A sum whose first operand is not finite is not finite (R8). -/
theorem ffinite_fadd_of_left {a : F64} (b : F64) (h : ffinite a = false) : ffinite (fadd a b) = false := by
  rw [ffinite_eq_false_iff]
  unfold fadd
  split
  · exact .inl (fisNaN_fnan _ _ _)
  · split
    · split
      · exact .inl (fisNaN_fnan _ _ _)
      · exact (ffinite_eq_false_iff a).1 h
    · rcases (ffinite_eq_false_iff a).1 h with h | h <;> simp_all

theorem toNat_f64OfRatio (neg : Bool) (n d : Nat) :
    (f64OfRatio neg n d).toNat = (if neg then 2 ^ 63 else 0) + roundMag 53 (2047 * 2 ^ 52) n d := by
  have := roundMag_le 53 (2047 * 2 ^ 52) n d
  unfold f64OfRatio
  rw [BitVec.toNat_ofNat]
  apply Nat.mod_eq_of_lt
  split <;> omega

/-- A rounded value is never a NaN (R8). -/
@[simp] theorem fisNaN_f64OfRatio (neg : Bool) (n d : Nat) : fisNaN (f64OfRatio neg n d) = false := by
  have h := roundMag_le 53 (2047 * 2 ^ 52) n d
  unfold fisNaN f64Exp f64Frac
  rw [toNat_f64OfRatio]
  generalize roundMag 53 (2047 * 2 ^ 52) n d = m at h
  cases neg <;> simp <;> omega

/-- What `f64` does to a NaN or an infinity (R11). -/
theorem toNat_f64OfF32_of_top {w : F32} (h : w.toNat / 2 ^ 23 % 2 ^ 8 = 255) :
    (f64OfF32 w).toNat = (if w.getLsbD 31 then 2 ^ 63 else 0) + 2047 * 2 ^ 52 + w.toNat % 2 ^ 23 * 2 ^ 29 := by
  simp only [f64OfF32, h, if_true, BitVec.toNat_ofNat]
  apply Nat.mod_eq_of_lt
  split <;> omega

theorem unitsPerOne_pos : 0 < unitsPerOne := by
  unfold unitsPerOne
  exact Nat.two_pow_pos _

theorem f64Value_nonneg_iff (x : F64) : 0 ≤ f64Value x ↔ 0 ≤ fscaled x := by
  have h : (0 : ℚ) < unitsPerOne := by exact_mod_cast unitsPerOne_pos
  rw [f64Value, le_div_iff₀ h, zero_mul]
  exact_mod_cast Iff.rfl

theorem f64Value_pos_iff (x : F64) : 0 < f64Value x ↔ 0 < fscaled x := by
  have h : (0 : ℚ) < unitsPerOne := by exact_mod_cast unitsPerOne_pos
  rw [f64Value, lt_div_iff₀ h, zero_mul]
  exact_mod_cast Iff.rfl

theorem f64Value_le_one_iff (x : F64) : f64Value x ≤ 1 ↔ fscaled x ≤ unitsPerOne := by
  have h : (0 : ℚ) < unitsPerOne := by exact_mod_cast unitsPerOne_pos
  rw [f64Value, div_le_iff₀ h, one_mul]
  exact_mod_cast Iff.rfl

theorem f64Value_eq_zero_iff (x : F64) : f64Value x = 0 ↔ fscaled x = 0 := by
  have h : (unitsPerOne : ℚ) ≠ 0 := by exact_mod_cast unitsPerOne_pos.ne'
  rw [f64Value, div_eq_iff h, zero_mul]
  exact_mod_cast Iff.rfl

end Sys2Proof.Machine
end

