-- ==== Sys2Proof/Laws/Memory.lean ====
section
/-!
SUPPORT. The buffer's bytes: reading after writing, and the canonical form kept by every operation (R42, R48, R55).
-/

namespace Sys2Proof.Machine

/-- Every listed address is above `a`. -/
def Memory.above (a : Nat) (m : Memory) : Prop := ∀ e ∈ m, a < e.1

theorem Memory.wf_cons {x : Nat} {c : Byte} {t : Memory} :
    Memory.wf ((x, c) :: t) = true ↔ c ≠ Memory.unlisted ∧ Memory.above x t ∧ Memory.wf t = true := by
  simp [Memory.wf, Memory.above, and_assoc]

theorem Memory.read_of_above {a : Nat} {m : Memory} (h : Memory.above a m) : m.read a = Memory.unlisted := by
  induction m with
  | nil => rfl
  | cons e t ih =>
    obtain ⟨x, c⟩ := e
    have hx : a < x := h (x, c) (by simp)
    have ht : Memory.above a t := fun e he => h e (by simp [he])
    simp [Memory.read, Nat.ne_of_gt hx, ih ht]

theorem Memory.above_mono {a b : Nat} {m : Memory} (hab : a ≤ b) (h : Memory.above b m) : Memory.above a m :=
  fun e he => Nat.lt_of_le_of_lt hab (h e he)

theorem Memory.mem_write {a : Nat} {b : Byte} {m : Memory} {e : Host.Cell} (h : e ∈ Memory.write a b m) :
    e = (a, b) ∨ e ∈ m := by
  induction m with
  | nil =>
    simp only [Memory.write] at h
    split at h <;> simp_all
  | cons y t ih =>
    obtain ⟨x, c⟩ := y
    simp only [Memory.write] at h
    split at h
    · split at h <;> simp_all
    · split at h
      · split at h
        · exact .inr (List.mem_cons_of_mem _ h)
        · rcases List.mem_cons.mp h with h | h
          · exact .inl h
          · exact .inr (List.mem_cons_of_mem _ h)
      · rcases List.mem_cons.mp h with h | h
        · exact .inr (by simp [h])
        · exact (ih h).imp_right (List.mem_cons_of_mem _)

/-- A write keeps the canonical form. -/
theorem Memory.write_wf {a : Nat} {b : Byte} {m : Memory} (h : Memory.wf m = true) :
    Memory.wf (Memory.write a b m) = true := by
  induction m with
  | nil =>
    simp only [Memory.write]
    split
    · rfl
    · rename_i hb
      exact Memory.wf_cons.mpr ⟨hb, by simp [Memory.above], rfl⟩
  | cons y t ih =>
    obtain ⟨x, c⟩ := y
    obtain ⟨hc, hx, ht⟩ := Memory.wf_cons.mp h
    simp only [Memory.write]
    split
    · rename_i hax
      split
      · exact h
      · rename_i hb
        refine Memory.wf_cons.mpr ⟨hb, fun e he => ?_, h⟩
        rcases List.mem_cons.mp he with rfl | he
        · exact hax
        · exact Nat.lt_trans hax (hx e he)
    · rename_i hax
      split
      · rename_i hEq
        subst hEq
        split
        · exact ht
        · rename_i hb
          exact Memory.wf_cons.mpr ⟨hb, hx, ht⟩
      · rename_i hne
        refine Memory.wf_cons.mpr ⟨hc, fun e he => ?_, ih ht⟩
        rcases Memory.mem_write he with rfl | he
        · omega
        · exact hx e he

/-- Reading what was written. -/
theorem Memory.read_write_same {a : Nat} {b : Byte} {m : Memory} (h : Memory.wf m = true) :
    (Memory.write a b m).read a = b := by
  induction m with
  | nil =>
    simp only [Memory.write]
    split
    · rename_i hb
      exact hb.symm
    · simp [Memory.read]
  | cons y t ih =>
    obtain ⟨x, c⟩ := y
    obtain ⟨_, hx, ht⟩ := Memory.wf_cons.mp h
    simp only [Memory.write]
    split
    · rename_i hax
      split
      · rename_i hb
        rw [hb]
        exact Memory.read_of_above (fun e he => by
          rcases List.mem_cons.mp he with rfl | he
          · exact hax
          · exact Nat.lt_trans hax (hx e he))
      · simp [Memory.read]
    · split
      · rename_i hEq
        subst hEq
        split
        · rename_i hb
          rw [hb]
          exact Memory.read_of_above hx
        · simp [Memory.read]
      · rename_i hne
        simp [Memory.read, Ne.symm hne, ih ht]

/-- A write leaves every other byte alone. -/
theorem Memory.read_write_other {a a' : Nat} {b : Byte} {m : Memory} (hne : a' ≠ a) (h : Memory.wf m = true) :
    (Memory.write a b m).read a' = m.read a' := by
  induction m with
  | nil =>
    simp only [Memory.write]
    split
    · rfl
    · simp [Memory.read, Ne.symm hne]
  | cons y t ih =>
    obtain ⟨x, c⟩ := y
    obtain ⟨_, hx, ht⟩ := Memory.wf_cons.mp h
    simp only [Memory.write]
    split
    · split
      · rfl
      · simp [Memory.read, Ne.symm hne]
    · split
      · rename_i hEq
        subst hEq
        split
        · simp [Memory.read, Ne.symm hne]
        · simp [Memory.read, Ne.symm hne]
      · simp only [Memory.read]
        split
        · rfl
        · exact ih ht

/-- Storing an entry keeps the canonical form. -/
theorem storeEntry_wf {m : Memory} {i : Nat} {w : F32} (h : Memory.wf m = true) :
    Memory.wf (storeEntry m i w) = true :=
  Memory.write_wf (Memory.write_wf (Memory.write_wf (Memory.write_wf h)))

/-- Storing an entry leaves every byte outside its four bytes alone. -/
theorem storeEntry_read_other {m : Memory} {i a : Nat} {w : F32} (h : Memory.wf m = true)
    (ha : a < entryAddr i ∨ entryAddr i + 4 ≤ a) : (storeEntry m i w).read a = m.read a := by
  have h1 : Memory.wf (Memory.write (entryAddr i) (w.extractLsb' 0 8) m) = true := Memory.write_wf h
  have h2 := Memory.write_wf (a := entryAddr i + 1) (b := w.extractLsb' 8 8) h1
  have h3 := Memory.write_wf (a := entryAddr i + 2) (b := w.extractLsb' 16 8) h2
  simp only [storeEntry]
  rw [Memory.read_write_other (by omega) h3, Memory.read_write_other (by omega) h2,
    Memory.read_write_other (by omega) h1, Memory.read_write_other (by omega) h]

/-- The four byte lanes of a word make the word. -/
theorem bytes_of_entry (w : F32) :
    w.extractLsb' 24 8 ++ w.extractLsb' 16 8 ++ w.extractLsb' 8 8 ++ w.extractLsb' 0 8 = w := by
  apply BitVec.eq_of_getLsbD_eq
  intro k hk
  simp only [BitVec.getLsbD_append, BitVec.getLsbD_extractLsb']
  rcases Nat.lt_or_ge k 8 with h | h
  · simp [h]
  · rcases Nat.lt_or_ge k 16 with h' | h'
    · simp [show ¬ k < 8 by omega, show k - 8 < 8 by omega, show 8 + (k - 8) = k by omega]
    · rcases Nat.lt_or_ge k 24 with h'' | h''
      · simp [show ¬ k < 8 by omega, show ¬ k - 8 < 8 by omega, show k - 8 - 8 < 8 by omega,
          show 16 + (k - 8 - 8) = k by omega]
      · simp [show ¬ k < 8 by omega, show ¬ k - 8 < 8 by omega, show ¬ k - 8 - 8 < 8 by omega,
          show k - 8 - 8 - 8 < 8 by omega, show 24 + (k - 8 - 8 - 8) = k by omega]

/-- Loading what was stored. -/
theorem load_storeEntry_same {m : Memory} {i : Nat} {w : F32} (h : Memory.wf m = true) :
    loadEntry (storeEntry m i w) i = w := by
  have h1 : Memory.wf (Memory.write (entryAddr i) (w.extractLsb' 0 8) m) = true := Memory.write_wf h
  have h2 := Memory.write_wf (a := entryAddr i + 1) (b := w.extractLsb' 8 8) h1
  have h3 := Memory.write_wf (a := entryAddr i + 2) (b := w.extractLsb' 16 8) h2
  simp only [loadEntry, storeEntry]
  rw [Memory.read_write_same h3, Memory.read_write_other (a' := entryAddr i + 2) (by omega) h3,
    Memory.read_write_same h2, Memory.read_write_other (a' := entryAddr i + 1) (by omega) h3,
    Memory.read_write_other (a' := entryAddr i + 1) (by omega) h2, Memory.read_write_same h1,
    Memory.read_write_other (a' := entryAddr i) (by omega) h3,
    Memory.read_write_other (a' := entryAddr i) (by omega) h2,
    Memory.read_write_other (a' := entryAddr i) (by omega) h1, Memory.read_write_same h]
  exact bytes_of_entry w

/-- Storing an entry leaves every other entry alone. -/
theorem load_storeEntry_other {m : Memory} {i j : Nat} {w : F32} (h : Memory.wf m = true) (hij : j ≠ i) :
    loadEntry (storeEntry m i w) j = loadEntry m j := by
  have hd : entryAddr j + 3 < entryAddr i ∨ entryAddr i + 4 ≤ entryAddr j := by simp only [entryAddr]; omega
  simp only [loadEntry]
  rw [storeEntry_read_other h (by omega), storeEntry_read_other h (by omega), storeEntry_read_other h (by omega),
    storeEntry_read_other h (by omega)]

/-- The buffer at reset has the canonical form. -/
theorem reset_buffer_wf : Memory.wf State.reset.sb = true := rfl

end Sys2Proof.Machine
end

