-- ==== Sys2Proof/Laws/State.lean ====
section
/-!
SUPPORT. One lemma per field per named update of the state, each true by rfl, so that no proof unfolds a record update.
-/

namespace Sys2Proof.Machine

variable (s : State)

/-! ### `flagAccessErr` -/

@[simp] theorem State.flagAccessErr_inst : (s.flagAccessErr).inst = s.inst := rfl
@[simp] theorem State.flagAccessErr_busy : (s.flagAccessErr).busy = s.busy := rfl
@[simp] theorem State.flagAccessErr_done : (s.flagAccessErr).done = s.done := rfl
@[simp] theorem State.flagAccessErr_error : (s.flagAccessErr).error = s.error := rfl
@[simp] theorem State.flagAccessErr_accessErr : (s.flagAccessErr).accessErr = true := rfl
@[simp] theorem State.flagAccessErr_ignored : (s.flagAccessErr).ignored = s.ignored := rfl
@[simp] theorem State.flagAccessErr_errInfo : (s.flagAccessErr).errInfo = s.errInfo := rfl
@[simp] theorem State.flagAccessErr_p : (s.flagAccessErr).p = s.p := rfl
@[simp] theorem State.flagAccessErr_numSamples : (s.flagAccessErr).numSamples = s.numSamples := rfl
@[simp] theorem State.flagAccessErr_duration : (s.flagAccessErr).duration = s.duration := rfl
@[simp] theorem State.flagAccessErr_repeatFreqEff : (s.flagAccessErr).repeatFreqEff = s.repeatFreqEff := rfl
@[simp] theorem State.flagAccessErr_maxSample : (s.flagAccessErr).maxSample = s.maxSample := rfl
@[simp] theorem State.flagAccessErr_renderCycles : (s.flagAccessErr).renderCycles = s.renderCycles := rfl
@[simp] theorem State.flagAccessErr_phase : (s.flagAccessErr).phase = s.phase := rfl
@[simp] theorem State.flagAccessErr_pink : (s.flagAccessErr).pink = s.pink := rfl
@[simp] theorem State.flagAccessErr_brown : (s.flagAccessErr).brown = s.brown := rfl
@[simp] theorem State.flagAccessErr_draws : (s.flagAccessErr).draws = s.draws := rfl
@[simp] theorem State.flagAccessErr_lpfY : (s.flagAccessErr).lpfY = s.lpfY := rfl
@[simp] theorem State.flagAccessErr_hpfX : (s.flagAccessErr).hpfX = s.hpfX := rfl
@[simp] theorem State.flagAccessErr_hpfY : (s.flagAccessErr).hpfY = s.hpfY := rfl
@[simp] theorem State.flagAccessErr_a0 : (s.flagAccessErr).a0 = s.a0 := rfl
@[simp] theorem State.flagAccessErr_stage : (s.flagAccessErr).stage = s.stage := rfl
@[simp] theorem State.flagAccessErr_i : (s.flagAccessErr).i = s.i := rfl
@[simp] theorem State.flagAccessErr_s : (s.flagAccessErr).s = s.s := rfl
@[simp] theorem State.flagAccessErr_f : (s.flagAccessErr).f = s.f := rfl
@[simp] theorem State.flagAccessErr_sb : (s.flagAccessErr).sb = s.sb := rfl
@[simp] theorem State.flagAccessErr_agenda : (s.flagAccessErr).agenda = s.agenda := rfl
@[simp] theorem State.flagAccessErr_hostData : (s.flagAccessErr).hostData = s.hostData := rfl
@[simp] theorem State.flagAccessErr_renders : (s.flagAccessErr).renders = s.renders := rfl

/-! ### `flagIgnored` -/

@[simp] theorem State.flagIgnored_inst : (s.flagIgnored).inst = s.inst := rfl
@[simp] theorem State.flagIgnored_busy : (s.flagIgnored).busy = s.busy := rfl
@[simp] theorem State.flagIgnored_done : (s.flagIgnored).done = s.done := rfl
@[simp] theorem State.flagIgnored_error : (s.flagIgnored).error = s.error := rfl
@[simp] theorem State.flagIgnored_accessErr : (s.flagIgnored).accessErr = s.accessErr := rfl
@[simp] theorem State.flagIgnored_ignored : (s.flagIgnored).ignored = true := rfl
@[simp] theorem State.flagIgnored_errInfo : (s.flagIgnored).errInfo = s.errInfo := rfl
@[simp] theorem State.flagIgnored_p : (s.flagIgnored).p = s.p := rfl
@[simp] theorem State.flagIgnored_numSamples : (s.flagIgnored).numSamples = s.numSamples := rfl
@[simp] theorem State.flagIgnored_duration : (s.flagIgnored).duration = s.duration := rfl
@[simp] theorem State.flagIgnored_repeatFreqEff : (s.flagIgnored).repeatFreqEff = s.repeatFreqEff := rfl
@[simp] theorem State.flagIgnored_maxSample : (s.flagIgnored).maxSample = s.maxSample := rfl
@[simp] theorem State.flagIgnored_renderCycles : (s.flagIgnored).renderCycles = s.renderCycles := rfl
@[simp] theorem State.flagIgnored_phase : (s.flagIgnored).phase = s.phase := rfl
@[simp] theorem State.flagIgnored_pink : (s.flagIgnored).pink = s.pink := rfl
@[simp] theorem State.flagIgnored_brown : (s.flagIgnored).brown = s.brown := rfl
@[simp] theorem State.flagIgnored_draws : (s.flagIgnored).draws = s.draws := rfl
@[simp] theorem State.flagIgnored_lpfY : (s.flagIgnored).lpfY = s.lpfY := rfl
@[simp] theorem State.flagIgnored_hpfX : (s.flagIgnored).hpfX = s.hpfX := rfl
@[simp] theorem State.flagIgnored_hpfY : (s.flagIgnored).hpfY = s.hpfY := rfl
@[simp] theorem State.flagIgnored_a0 : (s.flagIgnored).a0 = s.a0 := rfl
@[simp] theorem State.flagIgnored_stage : (s.flagIgnored).stage = s.stage := rfl
@[simp] theorem State.flagIgnored_i : (s.flagIgnored).i = s.i := rfl
@[simp] theorem State.flagIgnored_s : (s.flagIgnored).s = s.s := rfl
@[simp] theorem State.flagIgnored_f : (s.flagIgnored).f = s.f := rfl
@[simp] theorem State.flagIgnored_sb : (s.flagIgnored).sb = s.sb := rfl
@[simp] theorem State.flagIgnored_agenda : (s.flagIgnored).agenda = s.agenda := rfl
@[simp] theorem State.flagIgnored_hostData : (s.flagIgnored).hostData = s.hostData := rfl
@[simp] theorem State.flagIgnored_renders : (s.flagIgnored).renders = s.renders := rfl

/-! ### `goto` -/

@[simp] theorem State.goto_inst (st : BitVec 4) : (s.goto st).inst = s.inst := rfl
@[simp] theorem State.goto_busy (st : BitVec 4) : (s.goto st).busy = s.busy := rfl
@[simp] theorem State.goto_done (st : BitVec 4) : (s.goto st).done = s.done := rfl
@[simp] theorem State.goto_error (st : BitVec 4) : (s.goto st).error = s.error := rfl
@[simp] theorem State.goto_accessErr (st : BitVec 4) : (s.goto st).accessErr = s.accessErr := rfl
@[simp] theorem State.goto_ignored (st : BitVec 4) : (s.goto st).ignored = s.ignored := rfl
@[simp] theorem State.goto_errInfo (st : BitVec 4) : (s.goto st).errInfo = s.errInfo := rfl
@[simp] theorem State.goto_p (st : BitVec 4) : (s.goto st).p = s.p := rfl
@[simp] theorem State.goto_numSamples (st : BitVec 4) : (s.goto st).numSamples = s.numSamples := rfl
@[simp] theorem State.goto_duration (st : BitVec 4) : (s.goto st).duration = s.duration := rfl
@[simp] theorem State.goto_repeatFreqEff (st : BitVec 4) : (s.goto st).repeatFreqEff = s.repeatFreqEff := rfl
@[simp] theorem State.goto_maxSample (st : BitVec 4) : (s.goto st).maxSample = s.maxSample := rfl
@[simp] theorem State.goto_renderCycles (st : BitVec 4) : (s.goto st).renderCycles = s.renderCycles := rfl
@[simp] theorem State.goto_phase (st : BitVec 4) : (s.goto st).phase = s.phase := rfl
@[simp] theorem State.goto_pink (st : BitVec 4) : (s.goto st).pink = s.pink := rfl
@[simp] theorem State.goto_brown (st : BitVec 4) : (s.goto st).brown = s.brown := rfl
@[simp] theorem State.goto_draws (st : BitVec 4) : (s.goto st).draws = s.draws := rfl
@[simp] theorem State.goto_lpfY (st : BitVec 4) : (s.goto st).lpfY = s.lpfY := rfl
@[simp] theorem State.goto_hpfX (st : BitVec 4) : (s.goto st).hpfX = s.hpfX := rfl
@[simp] theorem State.goto_hpfY (st : BitVec 4) : (s.goto st).hpfY = s.hpfY := rfl
@[simp] theorem State.goto_a0 (st : BitVec 4) : (s.goto st).a0 = s.a0 := rfl
@[simp] theorem State.goto_stage (st : BitVec 4) : (s.goto st).stage = st := rfl
@[simp] theorem State.goto_i (st : BitVec 4) : (s.goto st).i = s.i := rfl
@[simp] theorem State.goto_s (st : BitVec 4) : (s.goto st).s = s.s := rfl
@[simp] theorem State.goto_f (st : BitVec 4) : (s.goto st).f = s.f := rfl
@[simp] theorem State.goto_sb (st : BitVec 4) : (s.goto st).sb = s.sb := rfl
@[simp] theorem State.goto_agenda (st : BitVec 4) : (s.goto st).agenda = s.agenda := rfl
@[simp] theorem State.goto_hostData (st : BitVec 4) : (s.goto st).hostData = s.hostData := rfl
@[simp] theorem State.goto_renders (st : BitVec 4) : (s.goto st).renders = s.renders := rfl

/-! ### `answer` -/

@[simp] theorem State.answer_inst (w : Word) : (s.answer w).inst = s.inst := rfl
@[simp] theorem State.answer_busy (w : Word) : (s.answer w).busy = s.busy := rfl
@[simp] theorem State.answer_done (w : Word) : (s.answer w).done = s.done := rfl
@[simp] theorem State.answer_error (w : Word) : (s.answer w).error = s.error := rfl
@[simp] theorem State.answer_accessErr (w : Word) : (s.answer w).accessErr = s.accessErr := rfl
@[simp] theorem State.answer_ignored (w : Word) : (s.answer w).ignored = s.ignored := rfl
@[simp] theorem State.answer_errInfo (w : Word) : (s.answer w).errInfo = s.errInfo := rfl
@[simp] theorem State.answer_p (w : Word) : (s.answer w).p = s.p := rfl
@[simp] theorem State.answer_numSamples (w : Word) : (s.answer w).numSamples = s.numSamples := rfl
@[simp] theorem State.answer_duration (w : Word) : (s.answer w).duration = s.duration := rfl
@[simp] theorem State.answer_repeatFreqEff (w : Word) : (s.answer w).repeatFreqEff = s.repeatFreqEff := rfl
@[simp] theorem State.answer_maxSample (w : Word) : (s.answer w).maxSample = s.maxSample := rfl
@[simp] theorem State.answer_renderCycles (w : Word) : (s.answer w).renderCycles = s.renderCycles := rfl
@[simp] theorem State.answer_phase (w : Word) : (s.answer w).phase = s.phase := rfl
@[simp] theorem State.answer_pink (w : Word) : (s.answer w).pink = s.pink := rfl
@[simp] theorem State.answer_brown (w : Word) : (s.answer w).brown = s.brown := rfl
@[simp] theorem State.answer_draws (w : Word) : (s.answer w).draws = s.draws := rfl
@[simp] theorem State.answer_lpfY (w : Word) : (s.answer w).lpfY = s.lpfY := rfl
@[simp] theorem State.answer_hpfX (w : Word) : (s.answer w).hpfX = s.hpfX := rfl
@[simp] theorem State.answer_hpfY (w : Word) : (s.answer w).hpfY = s.hpfY := rfl
@[simp] theorem State.answer_a0 (w : Word) : (s.answer w).a0 = s.a0 := rfl
@[simp] theorem State.answer_stage (w : Word) : (s.answer w).stage = s.stage := rfl
@[simp] theorem State.answer_i (w : Word) : (s.answer w).i = s.i := rfl
@[simp] theorem State.answer_s (w : Word) : (s.answer w).s = s.s := rfl
@[simp] theorem State.answer_f (w : Word) : (s.answer w).f = s.f := rfl
@[simp] theorem State.answer_sb (w : Word) : (s.answer w).sb = s.sb := rfl
@[simp] theorem State.answer_agenda (w : Word) : (s.answer w).agenda = s.agenda := rfl
@[simp] theorem State.answer_hostData (w : Word) : (s.answer w).hostData = w := rfl
@[simp] theorem State.answer_renders (w : Word) : (s.answer w).renders = s.renders := rfl

/-! ### `setParam` -/

@[simp] theorem State.setParam_inst (k : Nat) (v : Word) : (s.setParam k v).inst = s.inst := rfl
@[simp] theorem State.setParam_busy (k : Nat) (v : Word) : (s.setParam k v).busy = s.busy := rfl
@[simp] theorem State.setParam_done (k : Nat) (v : Word) : (s.setParam k v).done = s.done := rfl
@[simp] theorem State.setParam_error (k : Nat) (v : Word) : (s.setParam k v).error = s.error := rfl
@[simp] theorem State.setParam_accessErr (k : Nat) (v : Word) : (s.setParam k v).accessErr = s.accessErr := rfl
@[simp] theorem State.setParam_ignored (k : Nat) (v : Word) : (s.setParam k v).ignored = s.ignored := rfl
@[simp] theorem State.setParam_errInfo (k : Nat) (v : Word) : (s.setParam k v).errInfo = s.errInfo := rfl
@[simp] theorem State.setParam_p (k : Nat) (v : Word) : (s.setParam k v).p = s.p.setIfInBounds k v := rfl
@[simp] theorem State.setParam_numSamples (k : Nat) (v : Word) : (s.setParam k v).numSamples = s.numSamples := rfl
@[simp] theorem State.setParam_duration (k : Nat) (v : Word) : (s.setParam k v).duration = s.duration := rfl
@[simp] theorem State.setParam_repeatFreqEff (k : Nat) (v : Word) : (s.setParam k v).repeatFreqEff = s.repeatFreqEff := rfl
@[simp] theorem State.setParam_maxSample (k : Nat) (v : Word) : (s.setParam k v).maxSample = s.maxSample := rfl
@[simp] theorem State.setParam_renderCycles (k : Nat) (v : Word) : (s.setParam k v).renderCycles = s.renderCycles := rfl
@[simp] theorem State.setParam_phase (k : Nat) (v : Word) : (s.setParam k v).phase = s.phase := rfl
@[simp] theorem State.setParam_pink (k : Nat) (v : Word) : (s.setParam k v).pink = s.pink := rfl
@[simp] theorem State.setParam_brown (k : Nat) (v : Word) : (s.setParam k v).brown = s.brown := rfl
@[simp] theorem State.setParam_draws (k : Nat) (v : Word) : (s.setParam k v).draws = s.draws := rfl
@[simp] theorem State.setParam_lpfY (k : Nat) (v : Word) : (s.setParam k v).lpfY = s.lpfY := rfl
@[simp] theorem State.setParam_hpfX (k : Nat) (v : Word) : (s.setParam k v).hpfX = s.hpfX := rfl
@[simp] theorem State.setParam_hpfY (k : Nat) (v : Word) : (s.setParam k v).hpfY = s.hpfY := rfl
@[simp] theorem State.setParam_a0 (k : Nat) (v : Word) : (s.setParam k v).a0 = s.a0 := rfl
@[simp] theorem State.setParam_stage (k : Nat) (v : Word) : (s.setParam k v).stage = s.stage := rfl
@[simp] theorem State.setParam_i (k : Nat) (v : Word) : (s.setParam k v).i = s.i := rfl
@[simp] theorem State.setParam_s (k : Nat) (v : Word) : (s.setParam k v).s = s.s := rfl
@[simp] theorem State.setParam_f (k : Nat) (v : Word) : (s.setParam k v).f = s.f := rfl
@[simp] theorem State.setParam_sb (k : Nat) (v : Word) : (s.setParam k v).sb = s.sb := rfl
@[simp] theorem State.setParam_agenda (k : Nat) (v : Word) : (s.setParam k v).agenda = s.agenda := rfl
@[simp] theorem State.setParam_hostData (k : Nat) (v : Word) : (s.setParam k v).hostData = s.hostData := rfl
@[simp] theorem State.setParam_renders (k : Nat) (v : Word) : (s.setParam k v).renders = s.renders := rfl

/-! ### `takeTurn` -/

@[simp] theorem State.takeTurn_inst : (s.takeTurn).inst = s.inst := rfl
@[simp] theorem State.takeTurn_busy : (s.takeTurn).busy = s.busy := rfl
@[simp] theorem State.takeTurn_done : (s.takeTurn).done = s.done := rfl
@[simp] theorem State.takeTurn_error : (s.takeTurn).error = s.error := rfl
@[simp] theorem State.takeTurn_accessErr : (s.takeTurn).accessErr = s.accessErr := rfl
@[simp] theorem State.takeTurn_ignored : (s.takeTurn).ignored = s.ignored := rfl
@[simp] theorem State.takeTurn_errInfo : (s.takeTurn).errInfo = s.errInfo := rfl
@[simp] theorem State.takeTurn_p : (s.takeTurn).p = s.p := rfl
@[simp] theorem State.takeTurn_numSamples : (s.takeTurn).numSamples = s.numSamples := rfl
@[simp] theorem State.takeTurn_duration : (s.takeTurn).duration = s.duration := rfl
@[simp] theorem State.takeTurn_repeatFreqEff : (s.takeTurn).repeatFreqEff = s.repeatFreqEff := rfl
@[simp] theorem State.takeTurn_maxSample : (s.takeTurn).maxSample = s.maxSample := rfl
@[simp] theorem State.takeTurn_renderCycles : (s.takeTurn).renderCycles = s.renderCycles := rfl
@[simp] theorem State.takeTurn_phase : (s.takeTurn).phase = s.phase := rfl
@[simp] theorem State.takeTurn_pink : (s.takeTurn).pink = s.pink := rfl
@[simp] theorem State.takeTurn_brown : (s.takeTurn).brown = s.brown := rfl
@[simp] theorem State.takeTurn_draws : (s.takeTurn).draws = s.draws := rfl
@[simp] theorem State.takeTurn_lpfY : (s.takeTurn).lpfY = s.lpfY := rfl
@[simp] theorem State.takeTurn_hpfX : (s.takeTurn).hpfX = s.hpfX := rfl
@[simp] theorem State.takeTurn_hpfY : (s.takeTurn).hpfY = s.hpfY := rfl
@[simp] theorem State.takeTurn_a0 : (s.takeTurn).a0 = s.a0 := rfl
@[simp] theorem State.takeTurn_stage : (s.takeTurn).stage = s.stage := rfl
@[simp] theorem State.takeTurn_i : (s.takeTurn).i = s.i := rfl
@[simp] theorem State.takeTurn_s : (s.takeTurn).s = s.s := rfl
@[simp] theorem State.takeTurn_f : (s.takeTurn).f = s.f := rfl
@[simp] theorem State.takeTurn_sb : (s.takeTurn).sb = s.sb := rfl
@[simp] theorem State.takeTurn_agenda : (s.takeTurn).agenda = s.agenda.tail := rfl
@[simp] theorem State.takeTurn_hostData : (s.takeTurn).hostData = s.hostData := rfl
@[simp] theorem State.takeTurn_renders : (s.takeTurn).renders = s.renders := rfl

/-! ### `oscillate` -/

@[simp] theorem State.oscillate_inst (sh : F64 → F64) : (s.oscillate sh).inst = s.inst := rfl
@[simp] theorem State.oscillate_busy (sh : F64 → F64) : (s.oscillate sh).busy = s.busy := rfl
@[simp] theorem State.oscillate_done (sh : F64 → F64) : (s.oscillate sh).done = s.done := rfl
@[simp] theorem State.oscillate_error (sh : F64 → F64) : (s.oscillate sh).error = s.error := rfl
@[simp] theorem State.oscillate_accessErr (sh : F64 → F64) : (s.oscillate sh).accessErr = s.accessErr := rfl
@[simp] theorem State.oscillate_ignored (sh : F64 → F64) : (s.oscillate sh).ignored = s.ignored := rfl
@[simp] theorem State.oscillate_errInfo (sh : F64 → F64) : (s.oscillate sh).errInfo = s.errInfo := rfl
@[simp] theorem State.oscillate_p (sh : F64 → F64) : (s.oscillate sh).p = s.p := rfl
@[simp] theorem State.oscillate_numSamples (sh : F64 → F64) : (s.oscillate sh).numSamples = s.numSamples := rfl
@[simp] theorem State.oscillate_duration (sh : F64 → F64) : (s.oscillate sh).duration = s.duration := rfl
@[simp] theorem State.oscillate_repeatFreqEff (sh : F64 → F64) : (s.oscillate sh).repeatFreqEff = s.repeatFreqEff := rfl
@[simp] theorem State.oscillate_maxSample (sh : F64 → F64) : (s.oscillate sh).maxSample = s.maxSample := rfl
@[simp] theorem State.oscillate_renderCycles (sh : F64 → F64) : (s.oscillate sh).renderCycles = s.renderCycles := rfl
@[simp] theorem State.oscillate_phase (sh : F64 → F64) : (s.oscillate sh).phase = s.phase := rfl
@[simp] theorem State.oscillate_pink (sh : F64 → F64) : (s.oscillate sh).pink = s.pink := rfl
@[simp] theorem State.oscillate_brown (sh : F64 → F64) : (s.oscillate sh).brown = s.brown := rfl
@[simp] theorem State.oscillate_draws (sh : F64 → F64) : (s.oscillate sh).draws = s.draws := rfl
@[simp] theorem State.oscillate_lpfY (sh : F64 → F64) : (s.oscillate sh).lpfY = s.lpfY := rfl
@[simp] theorem State.oscillate_hpfX (sh : F64 → F64) : (s.oscillate sh).hpfX = s.hpfX := rfl
@[simp] theorem State.oscillate_hpfY (sh : F64 → F64) : (s.oscillate sh).hpfY = s.hpfY := rfl
@[simp] theorem State.oscillate_a0 (sh : F64 → F64) : (s.oscillate sh).a0 = s.a0 := rfl
@[simp] theorem State.oscillate_stage (sh : F64 → F64) : (s.oscillate sh).stage = s.stage := rfl
@[simp] theorem State.oscillate_i (sh : F64 → F64) : (s.oscillate sh).i = s.i := rfl
@[simp] theorem State.oscillate_s (sh : F64 → F64) : (s.oscillate sh).s = s.oscSum sh := rfl
@[simp] theorem State.oscillate_f (sh : F64 → F64) : (s.oscillate sh).f = s.f := rfl
@[simp] theorem State.oscillate_sb (sh : F64 → F64) : (s.oscillate sh).sb = s.sb := rfl
@[simp] theorem State.oscillate_agenda (sh : F64 → F64) : (s.oscillate sh).agenda = s.agenda := rfl
@[simp] theorem State.oscillate_hostData (sh : F64 → F64) : (s.oscillate sh).hostData = s.hostData := rfl
@[simp] theorem State.oscillate_renders (sh : F64 → F64) : (s.oscillate sh).renders = s.renders := rfl

/-! ### `raise` -/

@[simp] theorem State.raise_inst (k : ErrorKind) (n : Nat) : (s.raise k n).inst = s.inst := rfl
@[simp] theorem State.raise_busy (k : ErrorKind) (n : Nat) : (s.raise k n).busy = false := rfl
@[simp] theorem State.raise_done (k : ErrorKind) (n : Nat) : (s.raise k n).done = false := rfl
@[simp] theorem State.raise_error (k : ErrorKind) (n : Nat) : (s.raise k n).error = true := rfl
@[simp] theorem State.raise_accessErr (k : ErrorKind) (n : Nat) : (s.raise k n).accessErr = s.accessErr := rfl
@[simp] theorem State.raise_ignored (k : ErrorKind) (n : Nat) : (s.raise k n).ignored = s.ignored := rfl
@[simp] theorem State.raise_errInfo (k : ErrorKind) (n : Nat) : (s.raise k n).errInfo = errInfoWord k n := rfl
@[simp] theorem State.raise_p (k : ErrorKind) (n : Nat) : (s.raise k n).p = s.p := rfl
@[simp] theorem State.raise_numSamples (k : ErrorKind) (n : Nat) : (s.raise k n).numSamples = s.numSamples := rfl
@[simp] theorem State.raise_duration (k : ErrorKind) (n : Nat) : (s.raise k n).duration = s.duration := rfl
@[simp] theorem State.raise_repeatFreqEff (k : ErrorKind) (n : Nat) : (s.raise k n).repeatFreqEff = s.repeatFreqEff := rfl
@[simp] theorem State.raise_maxSample (k : ErrorKind) (n : Nat) : (s.raise k n).maxSample = s.maxSample := rfl
@[simp] theorem State.raise_renderCycles (k : ErrorKind) (n : Nat) : (s.raise k n).renderCycles = s.renderCycles := rfl
@[simp] theorem State.raise_phase (k : ErrorKind) (n : Nat) : (s.raise k n).phase = s.phase := rfl
@[simp] theorem State.raise_pink (k : ErrorKind) (n : Nat) : (s.raise k n).pink = s.pink := rfl
@[simp] theorem State.raise_brown (k : ErrorKind) (n : Nat) : (s.raise k n).brown = s.brown := rfl
@[simp] theorem State.raise_draws (k : ErrorKind) (n : Nat) : (s.raise k n).draws = s.draws := rfl
@[simp] theorem State.raise_lpfY (k : ErrorKind) (n : Nat) : (s.raise k n).lpfY = s.lpfY := rfl
@[simp] theorem State.raise_hpfX (k : ErrorKind) (n : Nat) : (s.raise k n).hpfX = s.hpfX := rfl
@[simp] theorem State.raise_hpfY (k : ErrorKind) (n : Nat) : (s.raise k n).hpfY = s.hpfY := rfl
@[simp] theorem State.raise_a0 (k : ErrorKind) (n : Nat) : (s.raise k n).a0 = s.a0 := rfl
@[simp] theorem State.raise_stage (k : ErrorKind) (n : Nat) : (s.raise k n).stage = stIdle := rfl
@[simp] theorem State.raise_i (k : ErrorKind) (n : Nat) : (s.raise k n).i = s.i := rfl
@[simp] theorem State.raise_s (k : ErrorKind) (n : Nat) : (s.raise k n).s = s.s := rfl
@[simp] theorem State.raise_f (k : ErrorKind) (n : Nat) : (s.raise k n).f = s.f := rfl
@[simp] theorem State.raise_sb (k : ErrorKind) (n : Nat) : (s.raise k n).sb = s.sb := rfl
@[simp] theorem State.raise_agenda (k : ErrorKind) (n : Nat) : (s.raise k n).agenda = s.agenda := rfl
@[simp] theorem State.raise_hostData (k : ErrorKind) (n : Nat) : (s.raise k n).hostData = s.hostData := rfl
@[simp] theorem State.raise_renders (k : ErrorKind) (n : Nat) : (s.raise k n).renders = s.renders := rfl

/-! ### `endOfRender` -/

@[simp] theorem State.endOfRender_inst : (s.endOfRender).inst = s.inst := rfl
@[simp] theorem State.endOfRender_busy : (s.endOfRender).busy = false := rfl
@[simp] theorem State.endOfRender_done : (s.endOfRender).done = true := rfl
@[simp] theorem State.endOfRender_error : (s.endOfRender).error = s.error := rfl
@[simp] theorem State.endOfRender_accessErr : (s.endOfRender).accessErr = s.accessErr := rfl
@[simp] theorem State.endOfRender_ignored : (s.endOfRender).ignored = s.ignored := rfl
@[simp] theorem State.endOfRender_errInfo : (s.endOfRender).errInfo = s.errInfo := rfl
@[simp] theorem State.endOfRender_p : (s.endOfRender).p = s.p := rfl
@[simp] theorem State.endOfRender_numSamples : (s.endOfRender).numSamples = s.numSamples := rfl
@[simp] theorem State.endOfRender_duration : (s.endOfRender).duration = s.duration := rfl
@[simp] theorem State.endOfRender_repeatFreqEff : (s.endOfRender).repeatFreqEff = s.repeatFreqEff := rfl
@[simp] theorem State.endOfRender_maxSample : (s.endOfRender).maxSample = s.maxSample := rfl
@[simp] theorem State.endOfRender_renderCycles : (s.endOfRender).renderCycles = Config.renderCyclesFn s.renders := rfl
@[simp] theorem State.endOfRender_phase : (s.endOfRender).phase = s.phase := rfl
@[simp] theorem State.endOfRender_pink : (s.endOfRender).pink = s.pink := rfl
@[simp] theorem State.endOfRender_brown : (s.endOfRender).brown = s.brown := rfl
@[simp] theorem State.endOfRender_draws : (s.endOfRender).draws = s.draws := rfl
@[simp] theorem State.endOfRender_lpfY : (s.endOfRender).lpfY = s.lpfY := rfl
@[simp] theorem State.endOfRender_hpfX : (s.endOfRender).hpfX = s.hpfX := rfl
@[simp] theorem State.endOfRender_hpfY : (s.endOfRender).hpfY = s.hpfY := rfl
@[simp] theorem State.endOfRender_a0 : (s.endOfRender).a0 = s.a0 := rfl
@[simp] theorem State.endOfRender_stage : (s.endOfRender).stage = stIdle := rfl
@[simp] theorem State.endOfRender_i : (s.endOfRender).i = s.i := rfl
@[simp] theorem State.endOfRender_s : (s.endOfRender).s = s.s := rfl
@[simp] theorem State.endOfRender_f : (s.endOfRender).f = s.f := rfl
@[simp] theorem State.endOfRender_sb : (s.endOfRender).sb = s.sb := rfl
@[simp] theorem State.endOfRender_agenda : (s.endOfRender).agenda = s.agenda := rfl
@[simp] theorem State.endOfRender_hostData : (s.endOfRender).hostData = s.hostData := rfl
@[simp] theorem State.endOfRender_renders : (s.endOfRender).renders = s.renders := rfl

/-! ### `draw` -/

@[simp] theorem State.draw_fst : s.draw.1 = prngStream s.draws.toNat := rfl
@[simp] theorem State.draw_snd_inst : s.draw.2.inst = s.inst := rfl
@[simp] theorem State.draw_snd_busy : s.draw.2.busy = s.busy := rfl
@[simp] theorem State.draw_snd_done : s.draw.2.done = s.done := rfl
@[simp] theorem State.draw_snd_error : s.draw.2.error = s.error := rfl
@[simp] theorem State.draw_snd_accessErr : s.draw.2.accessErr = s.accessErr := rfl
@[simp] theorem State.draw_snd_ignored : s.draw.2.ignored = s.ignored := rfl
@[simp] theorem State.draw_snd_errInfo : s.draw.2.errInfo = s.errInfo := rfl
@[simp] theorem State.draw_snd_p : s.draw.2.p = s.p := rfl
@[simp] theorem State.draw_snd_numSamples : s.draw.2.numSamples = s.numSamples := rfl
@[simp] theorem State.draw_snd_duration : s.draw.2.duration = s.duration := rfl
@[simp] theorem State.draw_snd_repeatFreqEff : s.draw.2.repeatFreqEff = s.repeatFreqEff := rfl
@[simp] theorem State.draw_snd_maxSample : s.draw.2.maxSample = s.maxSample := rfl
@[simp] theorem State.draw_snd_renderCycles : s.draw.2.renderCycles = s.renderCycles := rfl
@[simp] theorem State.draw_snd_phase : s.draw.2.phase = s.phase := rfl
@[simp] theorem State.draw_snd_pink : s.draw.2.pink = s.pink := rfl
@[simp] theorem State.draw_snd_brown : s.draw.2.brown = s.brown := rfl
@[simp] theorem State.draw_snd_draws : s.draw.2.draws = s.draws + 1 := rfl
@[simp] theorem State.draw_snd_lpfY : s.draw.2.lpfY = s.lpfY := rfl
@[simp] theorem State.draw_snd_hpfX : s.draw.2.hpfX = s.hpfX := rfl
@[simp] theorem State.draw_snd_hpfY : s.draw.2.hpfY = s.hpfY := rfl
@[simp] theorem State.draw_snd_a0 : s.draw.2.a0 = s.a0 := rfl
@[simp] theorem State.draw_snd_stage : s.draw.2.stage = s.stage := rfl
@[simp] theorem State.draw_snd_i : s.draw.2.i = s.i := rfl
@[simp] theorem State.draw_snd_s : s.draw.2.s = s.s := rfl
@[simp] theorem State.draw_snd_f : s.draw.2.f = s.f := rfl
@[simp] theorem State.draw_snd_sb : s.draw.2.sb = s.sb := rfl
@[simp] theorem State.draw_snd_agenda : s.draw.2.agenda = s.agenda := rfl
@[simp] theorem State.draw_snd_hostData : s.draw.2.hostData = s.hostData := rfl
@[simp] theorem State.draw_snd_renders : s.draw.2.renders = s.renders := rfl

end Sys2Proof.Machine
end

