-- ==== Sys2Proof/Laws/Ops.lean ====
section
/-!
SUPPORT. For each shared operation, once, everything it can do; later proofs cite these and do not unfold it.
-/

namespace Sys2Proof.Machine

variable {s t u : State}

/-- A transaction that answers a next state is in the aperture, and the next state is its effect. -/
theorem inAperture_next {addr : Nat} (h : s.inAperture addr t = .next u) : addr < s.aperture ∧ u = t := by
  simp only [State.inAperture] at h
  split at h
  · rename_i ha
    exact ⟨ha, by simpa using h.symm⟩
  · cases h

theorem inAperture_of_lt {addr : Nat} (h : addr < s.aperture) : s.inAperture addr t = .next t := by
  simp [State.inAperture, h]

theorem inAperture_of_le {addr : Nat} (h : s.aperture ≤ addr) :
    s.inAperture addr t = .fault .outsideAperture := by
  simp [State.inAperture, Nat.not_lt.mpr h]

/-- An engine access that answers a next state is to an entry of the buffer. -/
theorem atEntry_next (h : s.atEntry t = .next u) : s.i.toNat < s.inst.maxSamples ∧ u = t := by
  simp only [State.atEntry] at h
  split at h
  · rename_i ha
    exact ⟨ha, by simpa using h.symm⟩
  · cases h

theorem atEntry_of_lt (h : s.i.toNat < s.inst.maxSamples) : s.atEntry t = .next t := by
  simp [State.atEntry, h]

/-- The registers below 0x1000 are in every aperture. -/
theorem lt_aperture_of_register {addr : Nat} (h : addr < 0x1000) : addr < s.aperture := by
  simp only [State.aperture, apertureBytes]
  omega

/-- The command decoder accepts exactly three words (R65). -/
theorem decodeCmd_cases (v : Word) :
    (v = 0 ∧ decodeCmd v = .ok .nop) ∨ (v = 1 ∧ decodeCmd v = .ok .reset) ∨ (v = 2 ∧ decodeCmd v = .ok .start) ∨
      (v ≠ 0 ∧ v ≠ 1 ∧ v ≠ 2 ∧ decodeCmd v = .error .illegalCommand) := by
  by_cases h0 : v = 0
  · exact .inl ⟨h0, by subst h0; rfl⟩
  by_cases h1 : v = 1
  · exact .inr (.inl ⟨h1, by subst h1; rfl⟩)
  by_cases h2 : v = 2
  · exact .inr (.inr (.inl ⟨h2, by subst h2; rfl⟩))
  refine .inr (.inr (.inr ⟨h0, h1, h2, ?_⟩))
  have n0 : v.toNat ≠ 0 := fun h => h0 (BitVec.eq_of_toNat_eq (by simpa using h))
  have n1 : v.toNat ≠ 1 := fun h => h1 (BitVec.eq_of_toNat_eq (by simpa using h))
  have n2 : v.toNat ≠ 2 := fun h => h2 (BitVec.eq_of_toNat_eq (by simpa using h))
  unfold decodeCmd
  split <;> simp_all

/-- Everything a word written to CMD can do (R80 to R84). -/
theorem issueCommand_cases (s : State) (v : Word) :
    (v = 1 ∧ s.issueCommand v = s.resetBlock) ∨
      (s.busy = true ∧ v ≠ 1 ∧ s.issueCommand v = s.flagIgnored) ∨
        (s.busy = false ∧ v = 0 ∧ s.issueCommand v = s) ∨
          (s.busy = false ∧ v = 2 ∧ s.issueCommand v = s.startRender) ∨
            (s.busy = false ∧ v ≠ 0 ∧ v ≠ 1 ∧ v ≠ 2 ∧ s.issueCommand v = s.raise .illegalCommand 0xFF) := by
  unfold State.issueCommand
  cases hb : s.busy
  · rcases decodeCmd_cases v with ⟨hv, hd⟩ | ⟨hv, hd⟩ | ⟨hv, hd⟩ | ⟨h0, h1, h2, hd⟩
    · exact .inr (.inr (.inl ⟨rfl, hv, by simp [hd]⟩))
    · exact .inl ⟨hv, by simp [hd]⟩
    · exact .inr (.inr (.inr (.inl ⟨rfl, hv, by simp [hd]⟩)))
    · exact .inr (.inr (.inr (.inr ⟨rfl, h0, h1, h2, by simp [hd]⟩)))
  · by_cases hv : v = 1
    · exact .inl ⟨hv, by simp [hv]⟩
    · exact .inr (.inl ⟨rfl, hv, by rw [if_pos rfl, if_neg hv]⟩)

/-- Everything a host read can do (R50, R53). -/
theorem memRead_cases (s : State) (addr n : Nat) :
    (legalRead addr n = true ∧ s.memRead addr n = s.answer (s.readWord addr)) ∨
      (legalRead addr n = false ∧ s.memRead addr n = s.flagAccessErr.answer 0) := by
  unfold State.memRead
  cases legalRead addr n <;> simp

/-- Everything a host write can do (R51, R53). -/
theorem memWrite_cases (s : State) (addr n : Nat) (v : Word) :
    (legalWrite addr n = false ∧ s.memWrite addr n v = s.flagAccessErr) ∨
      (legalWrite addr n = true ∧ addr = 0x008 ∧ s.memWrite addr n v = s.issueCommand v) ∨
        (legalWrite addr n = true ∧ addr ≠ 0x008 ∧ s.busy = true ∧ s.memWrite addr n v = s.flagIgnored) ∨
          (legalWrite addr n = true ∧ addr ≠ 0x008 ∧ s.busy = false ∧
            s.memWrite addr n v = s.setParam ((addr - 0x100) / 8) v) := by
  unfold State.memWrite
  cases hl : legalWrite addr n
  · exact .inl ⟨rfl, by simp⟩
  · by_cases ha : addr = 0x008
    · exact .inr (.inl ⟨rfl, ha, by simp [ha]⟩)
    · cases hb : s.busy
      · exact .inr (.inr (.inr ⟨rfl, ha, rfl, by simp [ha]⟩))
      · exact .inr (.inr (.inl ⟨rfl, ha, rfl, by simp [ha]⟩))

/-- No 4-byte write is legal (R72). -/
theorem legalWrite_four (addr : Nat) : legalWrite addr 4 = false := rfl

/-- Next(STORE_PEAK) (R96). -/
theorem nextAfterStorePeak_cases (s : State) :
    (s.i.toNat + 1 < s.numSamples.toNat ∧
        s.nextAfterStorePeak = { s with i := s.i + 1, stage := firstStage s.inst.phaseOrder }) ∨
      (s.numSamples.toNat ≤ s.i.toNat + 1 ∧ s.nextAfterStorePeak = { s with i := 0, stage := stScale }) := by
  unfold State.nextAfterStorePeak State.moreSamples
  by_cases h : s.i.toNat + 1 < s.numSamples.toNat
  · exact .inl ⟨h, by simp [h]⟩
  · exact .inr ⟨by omega, by simp [h]⟩

/-- Next(SCALE) (R96). -/
theorem nextAfterScale_cases (s : State) :
    (s.i.toNat + 1 < s.numSamples.toNat ∧ s.nextAfterScale = { s with i := s.i + 1, stage := stScale }) ∨
      (s.numSamples.toNat ≤ s.i.toNat + 1 ∧ s.nextAfterScale = s.endOfRender) := by
  unfold State.nextAfterScale State.moreSamples
  by_cases h : s.i.toNat + 1 < s.numSamples.toNat
  · exact .inl ⟨h, by simp [h]⟩
  · exact .inr ⟨by omega, by simp [h]⟩

/-- An index that has a successor below NUM_SAMPLES does not wrap (R193). -/
theorem index_succ_toNat (h : s.i.toNat + 1 < s.numSamples.toNat) : (s.i + 1).toNat = s.i.toNat + 1 := by
  have := s.numSamples.isLt
  have h1 : (1 : Word).toNat = 1 := rfl
  rw [BitVec.toNat_add, h1]
  omega

/-- A source operation changes S.s, and a noise operation its own state (R107, R114). -/
theorem sourced_cases (h : s.sourced = some t) :
    s.pWaveform.toNat ≤ 9 ∧ ∃ x d b k, t = { s with s := x, draws := d, brown := b, pink := k } := by
  by_cases hw : s.pWaveform.toNat ≤ 9
  · refine ⟨hw, ?_⟩
    unfold State.sourced at h
    generalize s.pWaveform.toNat = n at h hw
    interval_cases n <;> simp only [Option.some.injEq] at h <;> subst h
    all_goals first
      | exact ⟨_, s.draws, s.brown, s.pink, rfl⟩
      | exact ⟨_, s.draws + 1, s.brown, s.pink, rfl⟩
      | exact ⟨_, s.draws + 1, s.brown, _, rfl⟩
      | exact ⟨_, s.draws + 1, _, s.pink, rfl⟩
  · exfalso
    unfold State.sourced at h
    split at h <;> first | omega | simp at h

/-- Every accepted waveform tag selects a source operation (R67). -/
theorem sourced_of_le (h : s.pWaveform.toNat ≤ 9) : ∃ t, s.sourced = some t := by
  unfold State.sourced
  generalize s.pWaveform.toNat = n at h
  interval_cases n <;> exact ⟨_, rfl⟩

end Sys2Proof.Machine
end

