-- ==== Sys2Proof/Laws/PerInstr.lean ====
section
/-!
SUPPORT. The operation table, row by row: the encoder's word of each constructor is in the row's format and matches the
row's mask and pattern (R78).
-/

namespace Sys2Proof.Laws

/-- One row of `spec/opcode_table.json`: its format, pattern and mask. -/
inductive TableRow where
  | cmd (pattern mask : Word)
  | waveform (pattern mask : Word)
  | stage (pattern mask : BitVec 4)
  | bus (pattern mask : BitVec 2)
  deriving DecidableEq, Repr

/-- The row of each constructor, copied from the table. -/
def rowOf : Instr → TableRow
  | .nop => .cmd 0x0000000000000000 0xFFFFFFFFFFFFFFFF
  | .reset => .cmd 0x0000000000000001 0xFFFFFFFFFFFFFFFF
  | .start => .cmd 0x0000000000000002 0xFFFFFFFFFFFFFFFF
  | .srcSine => .waveform 0x0000000000000000 0xFFFFFFFFFFFFFFFF
  | .srcTriangle => .waveform 0x0000000000000001 0xFFFFFFFFFFFFFFFF
  | .srcSawtooth => .waveform 0x0000000000000002 0xFFFFFFFFFFFFFFFF
  | .srcSquare => .waveform 0x0000000000000003 0xFFFFFFFFFFFFFFFF
  | .srcTangent => .waveform 0x0000000000000004 0xFFFFFFFFFFFFFFFF
  | .srcWhistle => .waveform 0x0000000000000005 0xFFFFFFFFFFFFFFFF
  | .srcBreaker => .waveform 0x0000000000000006 0xFFFFFFFFFFFFFFFF
  | .srcWhitenoise => .waveform 0x0000000000000007 0xFFFFFFFFFFFFFFFF
  | .srcPinknoise => .waveform 0x0000000000000008 0xFFFFFFFFFFFFFFFF
  | .srcBrownnoise => .waveform 0x0000000000000009 0xFFFFFFFFFFFFFFFF
  | .idle => .stage 0x0 0xF
  | .validate => .stage 0x1 0xF
  | .normalize => .stage 0x2 0xF
  | .init => .stage 0x3 0xF
  | .source => .stage 0x4 0xF
  | .freq => .stage 0x5 0xF
  | .tremolo => .stage 0x6 0xF
  | .lpf => .stage 0x7 0xF
  | .hpf => .stage 0x8 0xF
  | .envelope => .stage 0x9 0xF
  | .compress => .stage 0xA 0xF
  | .storePeak => .stage 0xB 0xF
  | .scale => .stage 0xC 0xF
  | .rd32 _ => .bus 0b00 0b11
  | .wr32 _ _ => .bus 0b01 0b11
  | .rd64 _ => .bus 0b10 0b11
  | .wr64 _ _ => .bus 0b11 0b11

/-- A word is in a row's format and matches it: (word & mask) = match. -/
def matchesRow : TableRow → Encoded → Prop
  | .cmd p m, .cmd w => w &&& m = p
  | .waveform p m, .waveform w => w &&& m = p
  | .stage p m, .stage c => c &&& m = p
  | .bus p m, .bus d _ _ => d &&& m = p
  | _, _ => False

namespace EncodedWordMatchesRow

/-- The encoder's word of an instruction matches its row of the table. -/
def Statement (i : Instr) : Prop := matchesRow (rowOf i) (encode i)

theorem nop : Statement .nop := rfl

theorem reset : Statement .reset := rfl

theorem start : Statement .start := rfl

theorem srcSine : Statement .srcSine := rfl

theorem srcTriangle : Statement .srcTriangle := rfl

theorem srcSawtooth : Statement .srcSawtooth := rfl

theorem srcSquare : Statement .srcSquare := rfl

theorem srcTangent : Statement .srcTangent := rfl

theorem srcWhistle : Statement .srcWhistle := rfl

theorem srcBreaker : Statement .srcBreaker := rfl

theorem srcWhitenoise : Statement .srcWhitenoise := rfl

theorem srcPinknoise : Statement .srcPinknoise := rfl

theorem srcBrownnoise : Statement .srcBrownnoise := rfl

theorem idle : Statement .idle := rfl

theorem validate : Statement .validate := rfl

theorem normalize : Statement .normalize := rfl

theorem init : Statement .init := rfl

theorem source : Statement .source := rfl

theorem freq : Statement .freq := rfl

theorem tremolo : Statement .tremolo := rfl

theorem lpf : Statement .lpf := rfl

theorem hpf : Statement .hpf := rfl

theorem envelope : Statement .envelope := rfl

theorem compress : Statement .compress := rfl

theorem storePeak : Statement .storePeak := rfl

theorem scale : Statement .scale := rfl

theorem rd32 (a : Nat) : Statement (.rd32 a) := rfl

theorem wr32 (a : Nat) (v : BitVec 32) : Statement (.wr32 a v) := rfl

theorem rd64 (a : Nat) : Statement (.rd64 a) := rfl

theorem wr64 (a : Nat) (v : Word) : Statement (.wr64 a v) := rfl

end EncodedWordMatchesRow

end Sys2Proof.Laws
end

