-- ==== Sys2Proof/Laws/Step.lean ====
section
/-!
SUPPORT. One step, taken apart: it is the engine's stage or the host's transaction, run on the state with the turn
taken.
-/

namespace Sys2Proof.Machine

variable {s t : State}

/-- An engine turn that answers a next state ran the stage S.stage names. -/
theorem engine_step_cases (hf : s.fetch = fetchStage s.stage) (h : step s = .next t) :
    ∃ i, decodeStage s.stage = .ok i ∧ exec i s.takeTurn = .next t := by
  unfold step at h
  rw [hf] at h
  unfold fetchStage at h
  cases hd : decodeStage s.stage with
  | ok i =>
    rw [hd] at h
    exact ⟨i, rfl, h⟩
  | error e =>
    rw [hd] at h
    cases h

/-- Everything a step that answers a next state can be. -/
theorem step_cases (h : step s = .next t) :
    (s.engineTurn ∧ ∃ i, decodeStage s.stage = .ok i ∧ exec i s.takeTurn = .next t) ∨
      (∃ r, s.agenda.head? = some (.host r) ∧ s.inst.base ≤ r.addr ∧
        exec (decodeBus r.desc (r.addr - s.inst.base) r.data) s.takeTurn = .next t) := by
  cases ha : s.agenda with
  | nil =>
    have hf : s.fetch = fetchStage s.stage := by unfold State.fetch; rw [ha]
    exact .inl ⟨by simp [State.engineTurn, ha], engine_step_cases hf h⟩
  | cons x l =>
    cases x with
    | engine =>
      have hf : s.fetch = fetchStage s.stage := by unfold State.fetch; rw [ha]
      exact .inl ⟨by simp [State.engineTurn, ha], engine_step_cases hf h⟩
    | host r =>
      refine .inr ⟨r, rfl, ?_⟩
      unfold step State.fetch at h
      rw [ha] at h
      by_cases hb : r.addr < s.inst.base
      · simp [hb] at h
      · simp only [hb, if_false] at h
        exact ⟨Nat.not_lt.mp hb, h⟩

/-- A stage code the sequencer can hold decodes (R68). -/
theorem decodeStage_of_le {c : BitVec 4} (h : c.toNat ≤ 12) : ∃ i, decodeStage c = .ok i := by
  unfold decodeStage
  generalize c.toNat = n at h
  interval_cases n <;> exact ⟨_, rfl⟩

end Sys2Proof.Machine
end

