-- ==== Sys2Proof/Tests/Slice0.lean ====
section
/-!
SUPPORT. Small tests of the model: the well-formedness smoke test, words decoded as the spec writes them, vectors of
spec/95_test_vectors.md that no free value touches (each names its vector), and for every statement with hypotheses a
concrete state and operands that meet them.
-/

namespace Sys2Proof.Tests

open Sys2Proof.Machine

/-! ### Well-formedness: one ill-formed term for each check -/

theorem test_wf_rd32 : (Instr.rd32 maxApertureBytes).wellFormed = false := by decide
theorem test_wf_wr32 : (Instr.wr32 maxApertureBytes 0).wellFormed = false := by decide
theorem test_wf_rd64 : (Instr.rd64 maxApertureBytes).wellFormed = false := by decide
theorem test_wf_wr64 : (Instr.wr64 maxApertureBytes 0).wellFormed = false := by decide
theorem test_wf_last_offset : (Instr.rd32 (maxApertureBytes - 1)).wellFormed = true := by decide

/-! ### Decoding: every constructor's word, from R65, R66, R68 and R72 -/

theorem test_decode_cmd :
    decode (.cmd 0x0000000000000000) = .ok .nop ∧ decode (.cmd 0x0000000000000001) = .ok .reset ∧
      decode (.cmd 0x0000000000000002) = .ok .start ∧ decode (.cmd 0x0000000000000003) = .error .illegalCommand ∧
        decode (.cmd 0x0000000000000100) = .error .illegalCommand := by decide

theorem test_decode_waveform :
    [0, 1, 2, 3, 4, 5, 6, 7, 8, 9].map (fun t => decode (.waveform t)) =
      [.ok .srcSine, .ok .srcTriangle, .ok .srcSawtooth, .ok .srcSquare, .ok .srcTangent, .ok .srcWhistle,
        .ok .srcBreaker, .ok .srcWhitenoise, .ok .srcPinknoise, .ok .srcBrownnoise] := by decide

theorem test_decode_waveform_unknown :
    decode (.waveform 10) = .error .unknownWaveform ∧
      decode (.waveform 0xFFFFFFFFFFFFFFFF) = .error .unknownWaveform := by decide

theorem test_decode_stage :
    [0x0, 0x1, 0x2, 0x3, 0x4, 0x5, 0x6, 0x7, 0x8, 0x9, 0xA, 0xB, 0xC].map (fun c => decode (.stage c)) =
      [.ok .idle, .ok .validate, .ok .normalize, .ok .init, .ok .source, .ok .freq, .ok .tremolo, .ok .lpf, .ok .hpf,
        .ok .envelope, .ok .compress, .ok .storePeak, .ok .scale] := by decide

theorem test_decode_stage_reserved :
    [0xD, 0xE, 0xF].map (fun c => decode (.stage c)) =
      [.error .reservedStage, .error .reservedStage, .error .reservedStage] := by decide

theorem test_decode_bus :
    decode (.bus 0b00 0x1064 0) = .ok (.rd32 0x1064) ∧
      decode (.bus 0b01 0x1000 0x3F800000) = .ok (.wr32 0x1000 0x3F800000) ∧
        decode (.bus 0b10 0x018 0) = .ok (.rd64 0x018) ∧ decode (.bus 0b11 0x190 9) = .ok (.wr64 0x190 9) := by decide

theorem test_table_words :
    decodeTableWord 8 0xC = some .scale ∧ decodeTableWord 64 6 = some .srcBreaker ∧
      decodeTableWord 2 1 = some (.wr32 0 0) ∧ decodeTableWord 8 0xD = none := by decide

/-! ### Helpers -/

/-- One field of the state an operation answers. -/
def after {α : Type} (o : Host.Outcome State Fault Refusal) (f : State → α) : Option α :=
  match o with
  | .next t => some (f t)
  | _ => none

/-- The operation answers a next state. -/
def isNext (o : Host.Outcome State Fault Refusal) : Bool := (after o State.busy).isSome

theorem next_of_isNext {o : Host.Outcome State Fault Refusal} (h : isNext o = true) : ∃ t, o = .next t := by
  cases o with
  | next t => exact ⟨t, rfl⟩
  | fault _ => exact absurd h (by simp [isNext, after])
  | refused _ => exact absurd h (by simp [isNext, after])

/-- P1's parameter set (spec/95_test_vectors.md, section 3). -/
def p1 : Vector Word 28 :=
  (((((Vector.replicate 28 0).set 0 0x40E5888000000000#64).set 2 0x3F847AE147AE147B#64).set 8 0x407B800000000000#64).set
    21 0x40D5888000000000#64).set 25 0x3FF0000000000000#64 |>.set 27 0x4059000000000000#64

/-- P1 with START accepted. -/
def pending : State := { State.reset with p := p1, busy := true, stage := stValidate, renders := 1 }

/-- P1 at STORE_PEAK of its last sample. -/
def midRender : State :=
  { pending with
    stage := stStorePeak, numSamples := 441, i := 440
    duration := 0x3F847AE147AE147B#64, repeatFreqEff := 0x4059000000000000#64 }

/-- A finished render of two entries. -/
def finished : State := { State.reset with done := true, numSamples := 2, i := 1 }

/-- A failed START (vector C5). -/
def failedStart : State := { State.reset with error := true, errInfo := 0x0002 }

/-- A state in which the host's next turn is one transaction. -/
def withHost (s : State) (d : BitVec 2) (a : Nat) (v : Word) : State :=
  { s with agenda := [.host ⟨d, s.inst.base + a, v⟩] }

/-! ### Commands and STATUS (vectors C1 to C11, RS2) -/

theorem test_nop_busy_sets_ignored :
    after (exec .nop { pending with stage := stInit }) State.statusWord = some 0x311 := by decide
theorem test_reset_c9 : after (exec .reset { pending with stage := stHpf }) State.statusWord = some 0x0 := by decide
theorem test_start_c4 : after (exec .start State.reset) State.statusWord = some 0x101 := by decide
theorem test_start_c11 :
    after (exec .start { State.reset with error := true, accessErr := true, ignored := true }) State.statusWord =
      some 0x119 := by decide
theorem test_illegal_command_c3 :
    after (exec (.wr64 0x008 0x102) State.reset) (fun t => (t.statusWord, t.errInfo)) = some (0x4, 0xFF03) := by decide
theorem test_illegal_command_c8 :
    after (exec (.wr64 0x008 0x5) { pending with stage := stInit }) State.statusWord = some 0x311 := by decide

/-! ### Validation (vectors V1, V6, V10, V11, V17, V19, C5) -/

theorem test_validate_v1 : after (exec .validate pending) State.statusWord = some 0x201 := by decide +kernel
theorem test_validate_c5 :
    after (exec .validate { pending with p := Vector.replicate 28 0 }) State.errInfo = some 0x0002 := by decide +kernel

/-- P1 with one parameter changed: the error VALIDATE finds. -/
def changed (k : Nat) (v : Word) : Option Nat := (pending.setParam k v).validationError

theorem test_validate_v6_v10_v17 :
    changed 4 0x4062C00000000000 = some 4 ∧ changed 16 256 = some 16 ∧ changed 2 0x408F400000000000 = some 0xFE := by
  decide +kernel
theorem test_validate_v11_v19 :
    ((pending.setParam 16 1).setParam 17 0xBFF0000000000000).validationError = some 17 ∧
      ((pending.setParam 18 12).setParam 2 0x408F400000000000).validationError = some 18 := by decide +kernel

/-! ### Stages (sections 1.2, 1.3, 2.4, 2.6, 2.7, 2.10, 2.12) -/

theorem test_normalize_p1 :
    after (exec .normalize { pending with stage := stNormalize }) (fun t => (t.numSamples, t.duration, t.repeatFreqEff)) =
      some (441, 0x3F847AE147AE147B, 0x4059000000000000) := by decide +kernel
theorem test_normalize_rounds_before_ceil :
    after (exec .normalize { pending with p := ((p1.set 1 (flit 1 10)).set 2 (flit 2 10)).set 3 (flit 3 10) })
      State.numSamples = some 26461 := by decide +kernel
theorem test_init_goes_to_source :
    after (exec .init pending) (fun t => (t.stage, t.a0)) = some (stSource, 0x3FF0000000000000) := by
  decide +kernel
theorem test_init_other_phase_order :
    after (exec .init { pending with inst := { Config.defaults with phaseOrder := .advanceThenSource } }) State.stage =
      some stFreq := by decide
theorem test_harmonic_sum_2_half : harmonicSum 2 (flit 1 2) = 0x3FFC000000000000#64 := by decide +kernel
theorem test_source_dispatches : after (exec .source { pending with p := p1.set 18 2 }) State.stage = some stFreq := by
  decide
theorem test_triangle : shapeTriangle (flit 6 10) = fneg 0x3FD9999999999998#64 := by decide +kernel
theorem test_sawtooth : shapeSawtooth (flit 1 2) = fneg (freal 1) ∧ shapeSawtooth (flit 1 4) = flit 1 2 := by
  decide +kernel
theorem test_breaker_zero : shapeBreaker 0 = 0xBCC0000000000000#64 := by decide +kernel
theorem test_breaker_quarter : shapeBreaker (flit 1 4) = flit 946152422706632 1000000000000000 := by decide +kernel
theorem test_square_at_duty :
    after (exec .srcSquare
        { pending with p := p1.set 19 (freal 50), a0 := freal 1, numSamples := 1, phase := flit 1 2 }) State.s =
      some (fneg (freal 1)) := by decide +kernel
theorem test_square_of_nan_phase : shapeSquare (flit 1 2) 0x7FF8000000000000 = fneg (freal 1) := by decide +kernel
theorem test_pink_draws_once : (State.reset.srcPinknoise).draws = 1 := rfl
theorem test_frac_tiny_negative : ffrac (fneg (flit 1 100000000000000000000)) = freal 1 := by decide +kernel
theorem test_envelope_decay :
    ({ pending with p := ((p1.set 1 (flit 1 2)).set 2 (freal 1)).set 3 (flit 1 2) } : State).envGain (flit 7 4) =
      flit 1 2 := by decide +kernel
theorem test_store_peak_pp1 :
    after (exec .storePeak { midRender with s := flit 1 10 }) (fun t => (loadEntry t.sb 440, t.maxSample, t.i, t.stage)) =
      some (0x3DCCCCCD#32, 0x3FB99999A0000000#64, 0, stScale) := by decide +kernel
theorem test_store_peak_pp6 :
    after (exec .storePeak { midRender with s := fneg 0 }) (fun t => (loadEntry t.sb 440, t.maxSample)) =
      some (0x80000000#32, 0) := by decide +kernel
theorem test_scale_pp2 :
    after (exec .scale { midRender with sb := storeEntry [] 440 0x3DCCCCCD, p := p1.set 27 (freal 300) })
      (fun t => (loadEntry t.sb 440, t.statusWord)) = some (0x3E99999A#32, 0x2) := by decide +kernel
theorem test_scale_pp3 :
    after (exec .scale { midRender with sb := storeEntry [] 440 0x3E99999A, p := p1.set 26 1, maxSample := f64OfF32 0x3E99999A })
      (fun t => loadEntry t.sb 440) = some 0x3F800000#32 := by decide +kernel

/-! ### Constants and arithmetic (R12, sections 2.6 and 2.11) -/

theorem test_forty_pi : f40Pi = 0x405F6A7A2955385E#64 := by decide +kernel
theorem test_sqrt_075 : fsqrt (flit 75 100) = fSqrt075 := by decide +kernel
theorem test_f64_of_nan : f64OfF32 0xFFC00001 = 0xFFF8000020000000#64 := by decide +kernel
theorem test_third : fdiv (freal 1) (freal 3) = 0x3FD5555555555555#64 := by decide +kernel

/-! ### The bus (vectors B1 to B13) -/

theorem test_rd64_b1 : after (exec (.rd64 0x000) State.reset) State.hostData = some 0x4A46585200000007 := by decide
theorem test_rd32_b5 : after (exec (.rd32 0x010) State.reset) (fun t => (t.hostData, t.statusWord)) = some (0, 0x8) := by
  decide
theorem test_rd32_little_endian :
    after (exec (.rd32 0x1004) { finished with sb := storeEntry [] 1 0x3D809851 }) State.hostData = some 0x3D809851 := by
  decide
theorem test_wr32_b11 : after (exec (.wr32 0x1000 0x3F800000) finished) (fun t => (t.statusWord, t.sb)) = some (0xA, []) := by
  decide
theorem test_wr64_b13 :
    after (step (withHost State.reset 0b11 0x190 0x12345)) State.pWaveform = some 0x12345 := by decide
theorem test_wr64_busy_ignored :
    after (exec (.wr64 0x140 5) pending) (fun t => (t.pFrequency, t.ignored)) = some (0x407B800000000000, true) := by decide

/-! ### States and operands that meet the hypotheses of the statements -/

theorem pending_valid : pending.validationError = none := by decide +kernel

theorem midRender_valid : midRender.validationError = none := by decide +kernel

theorem pending_inv : pending.Inv where
  instLegal := by decide
  status := by unfold State.statusCoherent; decide
  errInfo := by unfold State.errInfoReservedZero; decide
  parameters := by intro h; exact absurd h (by decide)
  results := by intro h; exact absurd h (by decide)
  index := by intro h; exact absurd h (by decide)
  buffer := ⟨rfl, by intro e he; cases he⟩
  peak := by unfold State.peakOk; decide
  brown := by unfold State.brownOk; decide +kernel
  phase := .inr (by decide +kernel)
  pending := by intro _ _; decide
  cycles := by intro _; decide
  failed := by intro h; exact absurd h (by decide)

theorem midRender_inv : midRender.Inv where
  instLegal := by decide
  status := by unfold State.statusCoherent; decide
  errInfo := by unfold State.errInfoReservedZero; decide
  parameters := fun _ => midRender_valid
  results := by intro _; decide +kernel
  index := by intro _; decide
  buffer := ⟨rfl, by intro e he; cases he⟩
  peak := by unfold State.peakOk; decide
  brown := by unfold State.brownOk; decide +kernel
  phase := .inr (by decide +kernel)
  pending := by intro _ h; exact absurd h (by decide)
  cycles := by intro _; decide
  failed := by intro h; exact absurd h (by decide)

theorem failedStart_inv : failedStart.Inv where
  instLegal := by decide
  status := by unfold State.statusCoherent; decide
  errInfo := by unfold State.errInfoReservedZero; decide
  parameters := by intro h; exact absurd h (by decide)
  results := by intro h; exact absurd h (by decide)
  index := by intro h; exact absurd h (by decide)
  buffer := ⟨rfl, by intro e he; cases he⟩
  peak := by unfold State.peakOk; decide
  brown := by unfold State.brownOk; decide +kernel
  phase := .inr (by decide +kernel)
  pending := by intro h; exact absurd h (by decide)
  cycles := by intro h; exact absurd h (by decide)
  failed := by intro _ _; decide

theorem engineTurn_of_nil {s : State} (h : s.agenda = []) : s.engineTurn := by simp [State.engineTurn, h]

theorem notReset_of_data {s : State} {v : Word} {d : BitVec 2} {a : Nat} (h : ¬ (d = 0b11 ∧ a = 0x008 ∧ v = 0x1)) :
    ¬ (withHost s d a v).commandTurn 0x1 := by
  intro hc
  simp [State.commandTurn, withHost] at hc
  exact h (by simpa using hc)

theorem witness_DecodeInvertsEncode :
    (Instr.wr64 (maxApertureBytes - 1) 0xFFFFFFFFFFFFFFFF).wellFormed = true ∧ decode (.cmd 2) = .ok .start ∧
      decode (.waveform 9) = .ok .srcBrownnoise ∧ decode (.stage 0xC) = .ok .scale := by decide

theorem witness_StepRunsTheDecodedOperation :
    (pending.engineTurn ∧ decodeStage pending.stage = .ok .validate) ∧
      (withHost pending 0b10 0x010 0).agenda = .host ⟨0b10, 0x010, 0⟩ :: [] ∧
        decode (.bus 0b10 (0x010 - pending.inst.base) 0) = .ok (.rd64 0x010) :=
  ⟨⟨engineTurn_of_nil rfl, by decide⟩, rfl, by decide⟩

theorem witness_Stops :
    State.reset.aperture ≤ 0x401000 ∧ (4095 < ({ State.reset with inst := { Config.defaults with base := 4096 } } : State).inst.base) ∧
      12 < ({ State.reset with stage := 0xD } : State).stage.toNat ∧
        9 < ({ State.reset with p := p1.set 18 10 } : State).pWaveform.toNat ∧
          State.reset.inst.maxSamples ≤ ({ State.reset with i := 1048576 } : State).i.toNat := by decide

theorem witness_ResetRegisters : (0x1D8, (0 : Word)) ∈ (List.range 28).map (fun k => (0x100 + 8 * k, (0 : Word))) := by decide

theorem witness_Busy : State.reset.busy = false ∧ pending.busy = true := by decide

theorem witness_CommandWrites : (0x3 : Word) ≠ 0x0 ∧ (0x3 : Word) ≠ 0x1 ∧ (0x3 : Word) ≠ 0x2 := by decide

/-- The two sequences of R115, for any ratio. -/
def powers (r : F64) : Nat → F64 × F64
  | 0 => (0, freal 1)
  | k + 1 => (fadd (powers r k).1 (powers r k).2, fmul (powers r k).2 r)

theorem witness_HarmonicSum (r : F64) : ∃ sig t : Nat → F64, sig 0 = 0 ∧ t 0 = freal 1 ∧
    (∀ k, sig (k + 1) = fadd (sig k) (t k)) ∧ ∀ k, t (k + 1) = fmul (t k) r :=
  ⟨fun k => (powers r k).1, fun k => (powers r k).2, rfl, rfl, fun _ => rfl, fun _ => rfl⟩

/-- The two sequences of R114, for any shape. -/
def partialSums (shape : F64 → F64) (phase falloff a : F64) : Nat → F64 × F64
  | 0 => (0, a)
  | h + 1 =>
    let (acc, amp) := partialSums shape phase falloff a h
    (fadd acc (fmul amp (shape (ffrac (fmul phase (freal (h + 1)))))), fmul amp falloff)

theorem witness_OscSum (shape : F64 → F64) (s : State) : ∃ acc amp : Nat → F64, acc 0 = 0 ∧ amp 0 = s.a0 ∧
    (∀ h, acc (h + 1) = fadd (acc h) (fmul (amp h) (shape (ffrac (fmul s.phase (freal (h + 1))))))) ∧
      ∀ h, amp (h + 1) = fmul (amp h) s.p[17] :=
  ⟨fun k => (partialSums shape s.phase s.p[17] s.a0 k).1, fun k => (partialSums shape s.phase s.p[17] s.a0 k).2, rfl, rfl,
    fun _ => rfl, fun _ => rfl⟩

theorem witness_Validate_illegal_first : legalParam 255 0 State.reset.p[0] = false := by decide
theorem witness_Validate_illegal_last :
    (∀ j : Fin 27, legalParam 255 j (p1.set 27 0x7FF0000000000000)[j.val] = true) ∧
      legalParam 255 27 (p1.set 27 0x7FF0000000000000)[27] = false := by decide +kernel
theorem witness_Validate_valid :
    (∀ k : Fin 28, legalParam pending.inst.maxHarmonics k pending.p[k] = true) ∧ pending.badHarmonicSum = false ∧
      pending.badCount = false := by decide +kernel
theorem witness_Validate_badSum :
    (∀ k : Fin 28, legalParam 255 k ((p1.set 16 1).set 17 0xBFF0000000000000)[k] = true) ∧
      feq (harmonicSum 1 0xBFF0000000000000) 0 = true := by decide +kernel
theorem witness_Validate_badCount :
    (∀ k : Fin 28, legalParam 255 k (p1.set 2 0x408F400000000000)[k] = true) ∧
      ({ pending with p := p1.set 2 0x408F400000000000 } : State).badHarmonicSum = false ∧
        ({ pending with p := p1.set 2 0x408F400000000000 } : State).badCount = true := by decide +kernel

theorem witness_SampleCount : pending.inst.legal = true ∧ pending.validationError = none := ⟨by decide, pending_valid⟩

theorem witness_SourceRuns :
    decodeWaveform pending.p[18] = .ok .srcSine ∧
      decodeWaveform ({ pending with p := p1.set 18 9 } : State).p[18] = .ok .srcBrownnoise := by decide

/-- The hypotheses on a phase. -/
def isPhase (p : F64) : Prop := ffinite p = true ∧ 0 ≤ f64Value p ∧ f64Value p ≤ 1

theorem isPhase_of_scaled {p : F64} (h : ffinite p = true ∧ 0 ≤ fscaled p ∧ fscaled p ≤ unitsPerOne) : isPhase p :=
  ⟨h.1, (f64Value_nonneg_iff p).2 h.2.1, (f64Value_le_one_iff p).2 h.2.2⟩

theorem witness_Triangle :
    isPhase 0 ∧ isPhase (flit 1 4) ∧ isPhase (flit 1 2) ∧ isPhase (flit 3 4) ∧ isPhase (freal 1) := by
  refine ⟨isPhase_of_scaled ?_, isPhase_of_scaled ?_, isPhase_of_scaled ?_, isPhase_of_scaled ?_, isPhase_of_scaled ?_⟩ <;>
    decide +kernel

theorem witness_Brown : State.reset.brownOk := by unfold State.brownOk; decide +kernel

theorem witness_Frac : ffinite (flit 1 2) = true := by decide +kernel

theorem witness_Tremolo :
    ffinite 0x8000000000000000 = true ∧ f64Value 0x8000000000000000 = 0 ∧ ffinite (fneg (freal 1)) = true ∧
      fisNaN f64Inf = false := by
  rw [f64Value_eq_zero_iff]
  decide +kernel

theorem witness_Cutoff :
    ffinite midRender.p[0] = true ∧ (0 : ℚ) < f64Value midRender.p[0] ∧ 2 ≤ f64Exp midRender.p[0] ∧
      1 ≤ midRender.numSamples.toNat ∧ ffinite midRender.p[21] = true ∧ ffinite midRender.p[22] = true := by
  rw [f64Value_pos_iff]
  decide +kernel

theorem witness_Filters : fisNaN (freal 1) = false ∧ freal 1 ≠ 0x8000000000000000 ∧ ffinite 0 = true ∧ fsign 0 = false := by
  decide +kernel

/-- P1 with an attack of half a second, at its first sample. -/
def attackStart : State := { pending with p := p1.set 1 (flit 1 2), i := 0, s := freal 1 }

theorem witness_EnvelopeBoundaries :
    (ffinite attackStart.p[0] = true ∧ (0 : ℚ) < f64Value attackStart.p[0] ∧ ffinite attackStart.p[1] = true ∧
        (0 : ℚ) < f64Value attackStart.p[1] ∧ attackStart.i = 0 ∧ ffinite attackStart.s = true) ∧
      ffinite pending.p[1] = true ∧ f64Value pending.p[1] = 0 ∧ ffinite pending.p[3] = true ∧ f64Value pending.p[3] = 0 := by
  simp only [f64Value_eq_zero_iff, f64Value_pos_iff]
  decide +kernel

theorem witness_Store :
    Memory.wf midRender.sb = true ∧ midRender.i.toNat < midRender.inst.maxSamples ∧
      ({ midRender with i := 1048575 } : State).i.toNat < midRender.inst.maxSamples := by decide

/-- Pass 2 at its first entry, of 1 and of MAX_SAMPLES entries. -/
def passTwo (n : Word) : State := { midRender with stage := 0xC, i := 0, numSamples := n }

theorem witness_PassTwo (n : Word) (h : n = 1 ∨ n = 1048576) :
    Memory.wf (passTwo n).sb = true ∧ (passTwo n).agenda = [] ∧ (passTwo n).stage = 0xC ∧ (passTwo n).i = 0 ∧
      1 ≤ (passTwo n).numSamples.toNat ∧ (passTwo n).numSamples.toNat ≤ (passTwo n).inst.maxSamples := by
  rcases h with rfl | rfl <;> decide

theorem midRender_steps : ∃ t, step midRender = .next t := ⟨_, rfl⟩

/-- P1 at STORE_PEAK of its first sample, whose invariant clauses are those of `midRender`. -/
def firstStore : State := { midRender with i := 0 }

theorem witness_PeakBounds : ∃ t, firstStore.Inv ∧ firstStore.peakBoundsStored ∧ step firstStore = .next t := by
  refine ⟨_, ⟨midRender_inv.instLegal, midRender_inv.status, midRender_inv.errInfo, midRender_inv.parameters,
    midRender_inv.results, by intro _; decide, midRender_inv.buffer, midRender_inv.peak, midRender_inv.brown,
    midRender_inv.phase, midRender_inv.pending, midRender_inv.cycles, midRender_inv.failed⟩, ?_, rfl⟩
  intro _ _ j hj
  exact absurd hj (by simp [firstStore])

theorem witness_SampleWindow :
    0 < State.reset.inst.maxSamples ∧ 1048575 < State.reset.inst.maxSamples ∧ finished.numSamples.toNat ≤ 2 ∧
      ¬ finished.numSamples.toNat ≤ 1 := by decide

theorem witness_IllegalAccesses :
    0x400FFF < State.reset.aperture ∧ ¬ (0x068 % 8 = 0 ∧ (0x068 ≤ 0x060 ∨ (0x100 ≤ 0x068 ∧ 0x068 ≤ 0x1DF))) ∧
      ¬ (0x1E0 % 8 = 0 ∧ (0x1E0 = 0x008 ∨ (0x100 ≤ 0x1E0 ∧ 0x1E0 ≤ 0x1DF))) ∧ ¬ (0xFFC % 4 = 0 ∧ 0x1000 ≤ 0xFFC) := by
  decide

theorem witness_EveryStepKeeps : ∃ t, midRender.Inv ∧ step midRender = .next t := ⟨_, midRender_inv, rfl⟩

theorem witness_NoStepStops : midRender.Inv ∧
    ∀ r l, midRender.agenda = .host r :: l → midRender.inst.base ≤ r.addr ∧ r.addr < midRender.inst.base + midRender.aperture :=
  ⟨midRender_inv, by intro r l h; cases h⟩

theorem pending_renderPending : pending.renderPending := ⟨rfl, rfl, rfl⟩

theorem witness_ARender : pending.inst.legal = true ∧ pending.renderPending ∧ pending.validationError = none :=
  ⟨by decide, pending_renderPending, pending_valid⟩

theorem witness_Deterministic :
    pending.inst = ({ pending with phase := freal 1, sb := [(0x1000, 1)] } : State).inst ∧
      ({ pending with phase := freal 1, sb := [(0x1000, 1)] } : State).renderPending ∧
        Memory.wf [(0x1000, 1)] = true ∧ Memory.wf pending.sb = true :=
  ⟨rfl, ⟨rfl, rfl, rfl⟩, by decide, rfl⟩

theorem witness_ParametersConstant :
    (midRender.engineTurn ∧ ∃ t, step midRender = .next t) ∧
      (withHost pending 0b11 0x140 5).busy = true ∧ ¬ (withHost pending 0b11 0x140 5).commandTurn 0x1 ∧
        ∃ t, step (withHost pending 0b11 0x140 5) = .next t :=
  ⟨⟨engineTurn_of_nil rfl, midRender_steps⟩, rfl, notReset_of_data (by decide), next_of_isNext (by decide)⟩

theorem witness_HostCannotDisturb : (withHost pending 0b11 0x140 5).busy = true ∧
    (withHost pending 0b11 0x140 5).hostTurn ⟨0b11, 0x140, 5⟩ ∧ ¬ (withHost pending 0b11 0x140 5).commandTurn 0x1 ∧
      ∃ t, step (withHost pending 0b11 0x140 5) = .next t :=
  ⟨rfl, ⟨by decide, by decide, by decide⟩, notReset_of_data (by decide), next_of_isNext (by decide)⟩

theorem witness_ResultsStay : ∃ t, (withHost finished 0b11 0x008 7).statusCoherent ∧
    (withHost finished 0b11 0x008 7).busy = false ∧ ¬ (withHost finished 0b11 0x008 7).commandTurn 0x1 ∧
      ¬ (withHost finished 0b11 0x008 7).commandTurn 0x2 ∧ step (withHost finished 0b11 0x008 7) = .next t := by
  refine ⟨_, by unfold State.statusCoherent; decide, rfl, notReset_of_data (by decide), ?_, rfl⟩
  intro h
  exact absurd h (by unfold State.commandTurn; decide)

theorem witness_StickyFlags : ∃ t, ({ pending with accessErr := true, ignored := true } : State).accessErr = true ∧
    ¬ ({ pending with accessErr := true, ignored := true } : State).commandTurn 0x1 ∧
      step { State.reset with accessErr := true, ignored := true } = .next t :=
  ⟨_, rfl, by unfold State.commandTurn; decide, rfl⟩

theorem witness_Errors :
    (∃ t, step { pending with p := Vector.replicate 28 0 } = .next t ∧ t.error = true) ∧
      (∃ t, step (withHost State.reset 0b11 0x008 7) = .next t ∧ t.error = true) ∧ pending.error = false :=
  ⟨⟨_, rfl, rfl⟩, ⟨_, rfl, rfl⟩, rfl⟩

theorem witness_AFailedRender : failedStart.Inv ∧ failedStart.error = true ∧ failedStart.errInfo.toNat % 2 ^ 8 = 2 ∧
    1048575 < failedStart.inst.maxSamples := ⟨failedStart_inv, rfl, by decide, by decide⟩

theorem witness_Arithmetic :
    ffinite (freal 1) = true ∧ f64Value (freal 1) ≠ 0 ∧ 0 ≤ f64Value (freal 2) ∧ f32Finite 0x3F800000 = true ∧
      f32Finite 0xFF800001 = false ∧ f32Finite 0x7F800000 = false ∧
      fisNaN 0x7FF0000000000001 = true ∧ fisInf 0xFFF0000000000000 = true := by
  rw [f64Value_nonneg_iff, ne_eq, f64Value_eq_zero_iff]
  decide +kernel

/-- R165's example: P1 with frequency and frequencySweep 1e308, at FREQ of its last sample. -/
def overflowing : State :=
  { midRender with stage := stFreq, p := (p1.set 8 0x7FE1CCF385EBC8A0#64).set 9 0x7FE1CCF385EBC8A0#64 }

/-- A render whose phase is a NaN. -/
def nanPhase : State := { midRender with stage := stSource, phase := 0x7FF8000000000000 }

theorem witness_NonFiniteFrequency :
    (∃ t, exec .freq overflowing = .next t ∧ ffinite t.f = false) ∧ fisNaN nanPhase.phase = true :=
  ⟨⟨_, rfl, ffinite_fadd_of_left _ (by decide +kernel)⟩, by decide⟩

end Sys2Proof.Tests
end

section
/-!
SUPPORT. The lattice of a binary format and rounding to it, for every number `t` of stored fraction bits. A magnitude
`m` is the exponent and fraction fields read as one number (R69, R71); `magUnits t m` is what it stands for, in units
of the format's smallest subnormal. `RoundsMag` says by the neighbouring midpoints that a magnitude is the rounding
of a real number, and `roundsMag_roundBits` that the model's `roundMag` computes it.
-/

namespace Sys2Proof.Machine

/-! ### Magnitudes -/

/-- What the magnitude `m` stands for, in units of the smallest subnormal. -/
def magUnits (t m : Nat) : Nat :=
  if m / 2 ^ t = 0 then m else (2 ^ t + m % 2 ^ t) * 2 ^ (m / 2 ^ t - 1)

/-- A significand `r` at the binade `k`: normal, or at the binade of the subnormals. The significand `2 ^ (t + 1)` is
the first of the next binade. -/
theorem magUnits_eq {t k r : Nat} (hr : r ≤ 2 ^ (t + 1)) (hk : k = 0 ∨ 2 ^ t ≤ r) :
    magUnits t (k * 2 ^ t + r) = r * 2 ^ k := by
  have hpos : 0 < 2 ^ t := Nat.two_pow_pos t
  rcases Nat.lt_or_ge r (2 ^ t) with hlt | hge
  · obtain rfl : k = 0 := hk.resolve_right (by omega)
    simp [magUnits, Nat.div_eq_of_lt hlt]
  · obtain ⟨f, rfl⟩ := Nat.exists_eq_add_of_le hge
    have hsplit : k * 2 ^ t + (2 ^ t + f) = f + (k + 1) * 2 ^ t := by ring
    rw [magUnits, hsplit, Nat.add_mul_div_right _ _ hpos, Nat.add_mul_mod_self_right]
    rcases Nat.lt_or_ge f (2 ^ t) with hf | hf
    · simp [Nat.div_eq_of_lt hf, Nat.mod_eq_of_lt hf]
    · obtain rfl : f = 2 ^ t := by rw [pow_succ] at hr; omega
      rw [Nat.div_self hpos, Nat.mod_self, if_neg (by omega), show 1 + (k + 1) - 1 = k + 1 by omega, pow_succ]
      ring

/-- Every magnitude is a significand at a binade. -/
theorem exists_significand (t m : Nat) :
    ∃ k r, m = k * 2 ^ t + r ∧ r < 2 ^ (t + 1) ∧ (k = 0 ∨ 2 ^ t ≤ r) := by
  have hpos : 0 < 2 ^ t := Nat.two_pow_pos t
  have hdm : 2 ^ t * (m / 2 ^ t) + m % 2 ^ t = m := Nat.div_add_mod m (2 ^ t)
  have hmod : m % 2 ^ t < 2 ^ t := Nat.mod_lt _ hpos
  have hpow : 2 ^ (t + 1) = 2 ^ t + 2 ^ t := by ring
  cases he : m / 2 ^ t with
  | zero => exact ⟨0, m, by omega, by rw [he] at hdm; omega, .inl rfl⟩
  | succ k =>
    refine ⟨k, 2 ^ t + m % 2 ^ t, ?_, by omega, .inr (by omega)⟩
    rw [he] at hdm
    linarith [hdm, (by ring : 2 ^ t * (k + 1) = k * 2 ^ t + 2 ^ t)]

theorem magUnits_lt_succ (t m : Nat) : magUnits t m < magUnits t (m + 1) := by
  obtain ⟨k, r, rfl, hr, hk⟩ := exists_significand t m
  rw [magUnits_eq hr.le hk, Nat.add_assoc, magUnits_eq hr (hk.imp_right (by omega))]
  exact Nat.mul_lt_mul_of_pos_right (Nat.lt_succ_self r) (Nat.two_pow_pos k)

theorem magUnits_strictMono (t : Nat) : StrictMono (magUnits t) := strictMono_nat_of_lt_succ (magUnits_lt_succ t)

@[simp] theorem magUnits_zero (t : Nat) : magUnits t 0 = 0 := by simp [magUnits]

theorem magUnits_eq_zero_iff (t m : Nat) : magUnits t m = 0 ↔ m = 0 := by
  simpa using (magUnits_strictMono t).injective.eq_iff (a := m) (b := 0)

/-- A significand of at most the format's precision, at any scale, is a magnitude's value. -/
theorem exists_magUnits_eq (t k a : Nat) (ha : a ≤ 2 ^ (t + 1)) :
    ∃ m, m ≤ (k + 2) * 2 ^ t ∧ magUnits t m = a * 2 ^ k := by
  induction k generalizing a with
  | zero => exact ⟨a, by rw [pow_succ] at ha; omega, by simpa using magUnits_eq (k := 0) ha (.inl rfl)⟩
  | succ k ih =>
    rcases Nat.lt_or_ge a (2 ^ t) with hlt | hge
    · obtain ⟨m, hm, hv⟩ := ih (2 * a) (by rw [pow_succ]; omega)
      exact ⟨m, hm.trans (Nat.mul_le_mul_right _ (by omega)), by rw [hv, pow_succ]; ring⟩
    · refine ⟨(k + 1) * 2 ^ t + a, ?_, magUnits_eq ha (.inr hge)⟩
      rw [pow_succ] at ha
      linarith [(by ring : (k + 1 + 2) * 2 ^ t = (k + 1) * 2 ^ t + 2 ^ t * 2)]

/-! ### Midpoints -/

/-- Twice the midpoint between the magnitude `m` and the next. -/
def midUnits (t m : Nat) : Nat := magUnits t m + magUnits t (m + 1)

theorem midUnits_strictMono (t : Nat) : StrictMono (midUnits t) :=
  strictMono_nat_of_lt_succ fun m => Nat.add_lt_add (magUnits_lt_succ t m) (magUnits_lt_succ t (m + 1))

/-- Twice the midpoint below the first magnitude of the binade `e + 3`, which is the overflow bound of a format with
that infinity. -/
theorem midUnits_below_binade (t e : Nat) :
    midUnits t ((e + 3) * 2 ^ t - 1) = (2 ^ (t + 2) - 1) * 2 ^ (e + 1) := by
  have hpos : 0 < 2 ^ t := Nat.two_pow_pos t
  have hp1 : 2 ^ (t + 1) = 2 * 2 ^ t := by ring
  have hp2 : 2 ^ (t + 2) = 4 * 2 ^ t := by ring
  have hlast : (e + 3) * 2 ^ t - 1 = (e + 1) * 2 ^ t + (2 ^ (t + 1) - 1) := by
    have : (e + 3) * 2 ^ t = (e + 1) * 2 ^ t + 2 * 2 ^ t := by ring
    omega
  have hnext : (e + 1) * 2 ^ t + (2 ^ (t + 1) - 1) + 1 = (e + 1) * 2 ^ t + 2 ^ (t + 1) := by omega
  rw [midUnits, hlast, hnext, magUnits_eq (by omega) (.inr (by omega)), magUnits_eq le_rfl (.inr (by omega)),
    ← Nat.add_mul]
  congr 1
  omega

/-! ### Rounding to the nearest magnitude -/

/-- `m` is the rounding of `w ≥ 0` units to the nearest magnitude, ties to even, with no bound on the exponent: `w` is
between the midpoints beside `m`, and on one of them only when `m` is even. -/
structure RoundsMag (t : Nat) (w : ℝ) (m : Nat) : Prop where
  above : 2 * w ≤ midUnits t m
  above_tie : 2 * w = midUnits t m → m % 2 = 0
  below : ∀ j, j + 1 = m → (midUnits t j : ℝ) ≤ 2 * w
  below_tie : ∀ j, j + 1 = m → (midUnits t j : ℝ) = 2 * w → m % 2 = 0

section
variable {t m : Nat} {w : ℝ}

theorem RoundsMag.midUnits_le_of_lt (h : RoundsMag t w m) {j : Nat} (hj : j < m) : (midUnits t j : ℝ) ≤ 2 * w := by
  obtain ⟨i, rfl⟩ : ∃ i, m = i + 1 := ⟨m - 1, by omega⟩
  calc (midUnits t j : ℝ) ≤ midUnits t i := by exact_mod_cast (midUnits_strictMono t).monotone (by omega : j ≤ i)
    _ ≤ 2 * w := h.below i rfl

theorem RoundsMag.le_midUnits_of_le (h : RoundsMag t w m) {j : Nat} (hj : m ≤ j) : 2 * w ≤ midUnits t j :=
  h.above.trans (by exact_mod_cast (midUnits_strictMono t).monotone hj)

/-- The rounding is at or above an even magnitude exactly when the number is at or above the midpoint below it. -/
theorem RoundsMag.succ_le_iff (h : RoundsMag t w m) {j : Nat} (hj : (j + 1) % 2 = 0) :
    j + 1 ≤ m ↔ (midUnits t j : ℝ) ≤ 2 * w := by
  refine ⟨h.midUnits_le_of_lt, fun hle => ?_⟩
  by_contra hlt
  have hmono : midUnits t m ≤ midUnits t j := (midUnits_strictMono t).monotone (by omega)
  have heq : 2 * w = midUnits t m := le_antisymm h.above (le_trans (by exact_mod_cast hmono) hle)
  have hmid : midUnits t j = midUnits t m := by
    apply le_antisymm _ hmono
    exact_mod_cast hle.trans heq.le
  have := (midUnits_strictMono t).injective hmid
  have := h.above_tie heq
  omega

/-- A magnitude's own value rounds to it. -/
theorem roundsMag_self (t m : Nat) : RoundsMag t (magUnits t m) m := by
  have up : magUnits t m < magUnits t (m + 1) := magUnits_lt_succ t m
  have hup : (2 : ℝ) * magUnits t m < midUnits t m := by exact_mod_cast (by unfold midUnits; omega)
  have hdown : ∀ j, j + 1 = m → (midUnits t j : ℝ) < 2 * magUnits t m := by
    rintro j rfl
    have := magUnits_lt_succ t j
    exact_mod_cast (by unfold midUnits; omega)
  exact ⟨hup.le, fun h => absurd h hup.ne, fun j hj => (hdown j hj).le, fun j hj h => absurd h (hdown j hj).ne⟩

theorem RoundsMag.le_of_rounds {m' : Nat} (h : RoundsMag t w m) (h' : RoundsMag t w m') : m' ≤ m := by
  by_contra hlt
  obtain ⟨j, rfl⟩ : ∃ j, m' = j + 1 := ⟨m' - 1, by omega⟩
  have hmono : midUnits t m ≤ midUnits t j := (midUnits_strictMono t).monotone (by omega)
  have hle : (midUnits t j : ℝ) ≤ midUnits t m := (h'.below j rfl).trans h.above
  have heq : midUnits t j = midUnits t m := le_antisymm (by exact_mod_cast hle) hmono
  have hj : (midUnits t j : ℝ) = 2 * w := le_antisymm (h'.below j rfl) (by rw [heq]; exact h.above)
  have heven' := h'.below_tie j rfl hj
  have heven := h.above_tie (by rw [← hj, heq])
  have := (midUnits_strictMono t).injective heq
  omega

theorem RoundsMag.unique {m' : Nat} (h : RoundsMag t w m) (h' : RoundsMag t w m') : m = m' :=
  le_antisymm (h'.le_of_rounds h) (h.le_of_rounds h')

/-- The value of another magnitude on the far side of the midpoint is no nearer, and as near only from the midpoint. -/
theorem RoundsMag.nearest (h : RoundsMag t w m) (c : Nat) :
    |(magUnits t m : ℝ) - w| ≤ |(magUnits t c : ℝ) - w| ∧
      (c ≠ m → |(magUnits t c : ℝ) - w| = |(magUnits t m : ℝ) - w| → m % 2 = 0) := by
  have mono := (magUnits_strictMono t).monotone
  rcases lt_trichotomy c m with hlt | rfl | hgt
  · obtain ⟨j, rfl⟩ : ∃ j, m = j + 1 := ⟨m - 1, by omega⟩
    have hcj : (magUnits t c : ℝ) ≤ magUnits t j := by exact_mod_cast mono (by omega : c ≤ j)
    have hjm : (magUnits t j : ℝ) < magUnits t (j + 1) := by exact_mod_cast magUnits_lt_succ t j
    have hmid : (midUnits t j : ℝ) = magUnits t j + magUnits t (j + 1) := by simp [midUnits]
    have hbelow := h.below j rfl
    have hc : |(magUnits t c : ℝ) - w| = w - magUnits t c := by rw [abs_of_nonpos (by linarith)]; ring
    have hle : |(magUnits t (j + 1) : ℝ) - w| ≤ w - magUnits t c := abs_le.2 ⟨by linarith, by linarith⟩
    refine ⟨hle.trans hc.ge, fun _ heq => h.below_tie j rfl ?_⟩
    rw [hc] at heq
    rcases abs_cases ((magUnits t (j + 1) : ℝ) - w) with ⟨ha, _⟩ | ⟨ha, _⟩ <;> linarith
  · exact ⟨le_rfl, fun hne => absurd rfl hne⟩
  · have hcm : (magUnits t (m + 1) : ℝ) ≤ magUnits t c := by exact_mod_cast mono (by omega : m + 1 ≤ c)
    have hm1 : (magUnits t m : ℝ) < magUnits t (m + 1) := by exact_mod_cast magUnits_lt_succ t m
    have hmid : (midUnits t m : ℝ) = magUnits t m + magUnits t (m + 1) := by simp [midUnits]
    have habove := h.above
    have hc : |(magUnits t c : ℝ) - w| = magUnits t c - w := abs_of_nonneg (by linarith)
    have hle : |(magUnits t m : ℝ) - w| ≤ magUnits t c - w := abs_le.2 ⟨by linarith, by linarith⟩
    refine ⟨hle.trans hc.ge, fun _ heq => h.above_tie ?_⟩
    rw [hc] at heq
    rcases abs_cases ((magUnits t m : ℝ) - w) with ⟨ha, _⟩ | ⟨ha, _⟩ <;> linarith

end

/-! ### Signed values -/

/-- The factor of a sign bit. -/
def signFactor (neg : Bool) : ℝ := if neg then -1 else 1

@[simp] theorem signFactor_true : signFactor true = -1 := rfl
@[simp] theorem signFactor_false : signFactor false = 1 := rfl

@[simp] theorem abs_signFactor (neg : Bool) : |signFactor neg| = 1 := by cases neg <;> simp

/-- Under one sign the distance is that of the magnitudes; under opposite signs it is their sum. -/
theorem abs_signed_sub (σ τ : Bool) (a w : ℝ) :
    |signFactor σ * a - signFactor τ * w| = if σ = τ then |a - w| else |a + w| := by
  have hadd : |-a - w| = |a + w| := by rw [← abs_neg (a + w), neg_add']
  have hsub : |-a + w| = |a - w| := by rw [← abs_neg (a - w), neg_sub, neg_add_eq_sub]
  cases σ <;> cases τ <;> simp [hadd, hsub]

/-- `RoundsMag.nearest` over the signed values of a format: the rounding of the magnitude, under the number's sign. -/
theorem RoundsMag.signed_nearest {t m : Nat} {w : ℝ} (h : RoundsMag t w m) (hw : 0 ≤ w) (σ τ : Bool) (c : Nat) :
    |signFactor τ * magUnits t m - signFactor τ * w| ≤ |signFactor σ * magUnits t c - signFactor τ * w| ∧
      (signFactor σ * magUnits t c ≠ signFactor τ * magUnits t m →
        |signFactor σ * magUnits t c - signFactor τ * w| = |signFactor τ * magUnits t m - signFactor τ * w| →
          m % 2 = 0) := by
  have hnear := h.nearest c
  have hc : (0 : ℝ) ≤ magUnits t c := by positivity
  have hsum : |(magUnits t c : ℝ) - w| ≤ |magUnits t c + w| := by
    rw [abs_of_nonneg (by linarith : (0 : ℝ) ≤ magUnits t c + w)]
    exact abs_le.2 ⟨by linarith, by linarith⟩
  simp only [abs_signed_sub, if_true]
  by_cases hs : σ = τ
  · subst hs
    simp only [if_true]
    exact ⟨hnear.1, fun hne heq => hnear.2 (fun h => hne (by rw [h])) heq⟩
  · simp only [if_neg hs]
    refine ⟨hnear.1.trans hsum, fun hne heq => ?_⟩
    by_cases hcm : c = m
    · subst hcm
      have hsq : ((magUnits t c : ℝ) + w) ^ 2 = (magUnits t c - w) ^ 2 := sq_eq_sq_iff_abs_eq_abs _ _ |>.2 heq
      have hprod : (magUnits t c : ℝ) * w = 0 := by linarith
      have hc0 : (magUnits t c : ℝ) ≠ 0 := fun h0 => hne (by rw [h0, mul_zero, mul_zero])
      have hw0 : w = 0 := (mul_eq_zero.1 hprod).resolve_left hc0
      have h0 : c = 0 := h.unique (by simpa [hw0] using roundsMag_self t 0)
      exact absurd (by simp [h0]) hc0
    · exact hnear.2 hcm (le_antisymm (heq ▸ hsum) hnear.1)

/-! ### What `roundMag` computes -/

/-- `roundNearestEven` is within half a divisor of the quotient, and off by exactly half only when even. -/
theorem roundNearestEven_spec (n : Nat) {d : Nat} (hd : 0 < d) :
    (2 * n ≤ 2 * (d * roundNearestEven n d) + d ∧ 2 * (d * roundNearestEven n d) ≤ 2 * n + d) ∧
      (2 * n = 2 * (d * roundNearestEven n d) + d ∨ 2 * (d * roundNearestEven n d) = 2 * n + d →
        roundNearestEven n d % 2 = 0) := by
  have hn : d * (n / d) + n % d = n := Nat.div_add_mod n d
  have hr : n % d < d := Nat.mod_lt n hd
  unfold roundNearestEven
  simp only
  split
  · omega
  · split
    · rw [Nat.mul_succ]
      omega
    · generalize n / d = q at *
      rcases Nat.mod_two_eq_zero_or_one q with h | h <;> rw [h]
      · rw [Nat.add_zero]
        omega
      · rw [Nat.mul_add, Nat.mul_one]
        omega

/-- The magnitude `roundMag` gives before the bound of the format. -/
def roundBits (t n d : Nat) : Nat :=
  (Nat.log2 (n / d) - t) * 2 ^ t + roundNearestEven n (d * 2 ^ (Nat.log2 (n / d) - t))

theorem roundMag_eq_min (t infBits n d : Nat) : roundMag (t + 1) infBits n d = min infBits (roundBits t n d) := by
  unfold roundMag roundBits
  simp only [Nat.add_sub_cancel, Nat.add_sub_add_right]
  split <;> omega

/-- The binade at which `roundMag` rounds: the quotient is below the next one, and not below this one unless it is that
of the subnormals. -/
theorem binade_bounds (t n : Nat) {d : Nat} (hd : 0 < d) :
    n < d * 2 ^ (Nat.log2 (n / d) - t) * 2 ^ (t + 1) ∧
      (Nat.log2 (n / d) - t = 0 ∨ d * 2 ^ (Nat.log2 (n / d) - t) * 2 ^ t ≤ n) := by
  have hlog : n / d < 2 ^ (Nat.log2 (n / d) + 1) := Nat.lt_log2_self
  constructor
  · rw [Nat.mul_assoc, ← pow_add, Nat.mul_comm]
    refine (Nat.div_lt_iff_lt_mul hd).1 (hlog.trans_le (Nat.pow_le_pow_right (by norm_num) (by omega)))
  · rcases Nat.eq_zero_or_pos (Nat.log2 (n / d) - t) with h | h
    · exact .inl h
    · right
      have hq : n / d ≠ 0 := by
        intro h0
        simp [h0] at h
      rw [Nat.mul_assoc, ← pow_add, show Nat.log2 (n / d) - t + t = Nat.log2 (n / d) by omega, Nat.mul_comm]
      exact (Nat.mul_le_mul_right d (Nat.log2_self_le hq)).trans (Nat.div_mul_le_self n d)

/-- The next magnitude is at least one unit of the significand further on. -/
theorem succ_significand_le {t k r : Nat} (hr : r ≤ 2 ^ (t + 1)) (hk : k = 0 ∨ 2 ^ t ≤ r) :
    (r + 1) * 2 ^ k ≤ magUnits t (k * 2 ^ t + r + 1) := by
  rcases hr.lt_or_eq with hlt | rfl
  · rw [Nat.add_assoc, magUnits_eq hlt (hk.imp_right (by omega))]
  · have hp : 2 ^ (t + 1) = 2 ^ t + 2 ^ t := by ring
    have hpos : 0 < 2 ^ t := Nat.two_pow_pos t
    have hsplit : k * 2 ^ t + 2 ^ (t + 1) + 1 = (k + 1) * 2 ^ t + (2 ^ t + 1) := by ring
    rw [hsplit, magUnits_eq (by omega) (.inr (by omega)), hp, pow_succ, Nat.mul_comm (2 ^ k) 2, ← Nat.mul_assoc]
    exact Nat.mul_le_mul_right _ (by omega)

/-- `RoundsMag` of a quotient, over the integers. -/
theorem roundsMag_div {t n d m : Nat} (hd : 0 < d) (above : 2 * n ≤ midUnits t m * d)
    (above_tie : 2 * n = midUnits t m * d → m % 2 = 0) (below : ∀ j, j + 1 = m → midUnits t j * d ≤ 2 * n)
    (below_tie : ∀ j, j + 1 = m → midUnits t j * d = 2 * n → m % 2 = 0) : RoundsMag t ((n : ℝ) / d) m := by
  have hd' : (0 : ℝ) < d := by exact_mod_cast hd
  refine ⟨?_, fun h => above_tie ?_, fun j hj => ?_, fun j hj h => below_tie j hj ?_⟩
  · rw [mul_div_assoc', div_le_iff₀ hd']
    exact_mod_cast above
  · rw [mul_div_assoc', div_eq_iff hd'.ne'] at h
    exact_mod_cast h
  · rw [mul_div_assoc', le_div_iff₀ hd']
    exact_mod_cast below j hj
  · rw [mul_div_assoc', eq_div_iff hd'.ne'] at h
    exact_mod_cast h

/-- The integer core of rounding: a significand `r` within half of `n / (d * 2 ^ k)`, at the binade of the quotient, is
the rounded magnitude. -/
theorem roundsMag_of_significand {t n d k r : Nat} (ht : t ≠ 0) (hd : 0 < d)
    (hhi : n < d * 2 ^ k * 2 ^ (t + 1)) (hlo : k = 0 ∨ d * 2 ^ k * 2 ^ t ≤ n)
    (hnear : 2 * n ≤ 2 * (d * 2 ^ k * r) + d * 2 ^ k ∧ 2 * (d * 2 ^ k * r) ≤ 2 * n + d * 2 ^ k)
    (heven : 2 * n = 2 * (d * 2 ^ k * r) + d * 2 ^ k ∨ 2 * (d * 2 ^ k * r) = 2 * n + d * 2 ^ k → r % 2 = 0) :
    RoundsMag t ((n : ℝ) / d) (k * 2 ^ t + r) := by
  obtain ⟨habove, hbelow⟩ := hnear
  have hD : 0 < d * 2 ^ k := Nat.mul_pos hd (Nat.two_pow_pos k)
  have hscale : ∀ a, a * 2 ^ k * d = d * 2 ^ k * a := fun a => by ring
  have hr : r ≤ 2 ^ (t + 1) := by
    by_contra hlt
    have := Nat.mul_le_mul_left (d * 2 ^ k) (by omega : 2 ^ (t + 1) + 1 ≤ r)
    rw [Nat.mul_succ] at this
    omega
  have hk : k = 0 ∨ 2 ^ t ≤ r := hlo.imp_right fun hlo => by
    by_contra hlt
    have := Nat.mul_le_mul_left (d * 2 ^ k) (by omega : r + 1 ≤ 2 ^ t)
    rw [Nat.mul_succ] at this
    omega
  have hparity : r % 2 = 0 → (k * 2 ^ t + r) % 2 = 0 := fun h => by
    obtain ⟨u, rfl⟩ := Nat.exists_eq_succ_of_ne_zero ht
    rw [pow_succ, ← Nat.mul_assoc]
    omega
  have hval : magUnits t (k * 2 ^ t + r) * d = d * 2 ^ k * r := by rw [magUnits_eq hr hk, hscale]
  have hnext : d * 2 ^ k * r + d * 2 ^ k ≤ magUnits t (k * 2 ^ t + r + 1) * d := by
    have := Nat.mul_le_mul_right d (succ_significand_le hr hk)
    rwa [hscale, Nat.mul_succ] at this
  have hprev : ∀ j, j + 1 = k * 2 ^ t + r →
      magUnits t j * d + d * 2 ^ k = d * 2 ^ k * r ∨ (magUnits t j * d < d * 2 ^ k * r ∧ d * 2 ^ k * r ≤ n) := by
    intro j hj
    by_cases hbinade : k ≠ 0 ∧ r = 2 ^ t
    · obtain ⟨hk0, rfl⟩ := hbinade
      refine .inr ⟨?_, hlo.resolve_left hk0⟩
      rw [← hval, ← hj]
      exact Nat.mul_lt_mul_of_pos_right (magUnits_lt_succ t j) hd
    · left
      obtain ⟨r', rfl⟩ : ∃ r', r = r' + 1 := by
        refine Nat.exists_eq_succ_of_ne_zero fun h0 => ?_
        have := Nat.two_pow_pos t
        obtain rfl : k = 0 := hk.resolve_right (by omega)
        omega
      obtain rfl : j = k * 2 ^ t + r' := by omega
      rw [magUnits_eq (by omega) (by omega), hscale, Nat.mul_succ]
  refine roundsMag_div hd ?_ (fun h => hparity (heven ?_)) (fun j hj => ?_) (fun j hj h => hparity (heven ?_))
  all_goals simp only [midUnits, Nat.add_mul] at *
  · omega
  · omega
  · rw [hj]
    rcases hprev j hj with h | h <;> omega
  · rw [hj] at h
    rcases hprev j hj with h' | h' <;> omega

theorem roundsMag_roundBits {t : Nat} (ht : t ≠ 0) (n : Nat) {d : Nat} (hd : 0 < d) :
    RoundsMag t ((n : ℝ) / d) (roundBits t n d) := by
  obtain ⟨hhi, hlo⟩ := binade_bounds t n hd
  obtain ⟨hnear, heven⟩ := roundNearestEven_spec n (Nat.mul_pos hd (Nat.two_pow_pos (Nat.log2 (n / d) - t)))
  exact roundsMag_of_significand ht hd hhi hlo hnear heven

/-! ### The bound of a format -/

/-- The rounding is at or past the infinity of a format exactly when the number is at or past its overflow bound. -/
theorem RoundsMag.infinity_le_iff {t m : Nat} {w : ℝ} (h : RoundsMag t w m) (ht : t ≠ 0) (e : Nat) :
    (e + 3) * 2 ^ t ≤ m ↔ (2 ^ (t + 2) - 1) * 2 ^ (e + 1) ≤ 2 * w := by
  have hpos : 0 < (e + 3) * 2 ^ t := Nat.mul_pos (by omega) (Nat.two_pow_pos t)
  have heven : (e + 3) * 2 ^ t % 2 = 0 := by
    obtain ⟨u, rfl⟩ := Nat.exists_eq_succ_of_ne_zero ht
    rw [pow_succ, ← Nat.mul_assoc]
    omega
  have hsucc : (e + 3) * 2 ^ t - 1 + 1 = (e + 3) * 2 ^ t := by omega
  have hiff := h.succ_le_iff (j := (e + 3) * 2 ^ t - 1) (by rw [hsucc, heven])
  rw [hsucc, midUnits_below_binade, Nat.cast_mul, Nat.cast_sub Nat.one_le_two_pow] at hiff
  simpa using hiff

/-- A binary format: the finite patterns, the sign and the magnitude of a pattern, and the value of a finite one, with
what ties them together. `unit` of the format's smallest subnormals make 1. -/
structure BinaryFormat (α : Type) where
  finite : α → Bool
  neg : α → Bool
  bits : α → Nat
  value : α → ℚ
  fractionBits : Nat
  infBits : Nat
  unit : Nat
  overflow : ℚ
  unit_pos : 0 < unit
  overflow_pos : 0 < overflow
  finite_iff : ∀ c, finite c = true ↔ bits c < infBits
  value_cast : ∀ c, (value c : ℝ) = signFactor (neg c) * magUnits fractionBits (bits c) / unit
  infBits_le_iff : ∀ {m : Nat} {w : ℝ}, RoundsMag fractionBits w m → (infBits ≤ m ↔ (overflow : ℝ) ≤ w / unit)

namespace BinaryFormat
variable {α : Type} (F : BinaryFormat α)

theorem unit_cast_pos : (0 : ℝ) < F.unit := by exact_mod_cast F.unit_pos

theorem distanceTo_value (v : ℝ) (c : α) (neg : Bool) (w : ℝ) (hv : v = signFactor neg * w / F.unit) :
    distanceTo v (F.value c) =
      |signFactor (F.neg c) * magUnits F.fractionBits (F.bits c) - signFactor neg * w| / F.unit := by
  rw [distanceTo, F.value_cast, hv, ← sub_div, abs_div, abs_of_pos F.unit_cast_pos]

/-- Every finite value is below the overflow bound. -/
theorem abs_value_lt {c : α} (h : F.finite c = true) : |(F.value c : ℝ)| < F.overflow := by
  rw [F.value_cast, mul_div_assoc, abs_mul, abs_signFactor, one_mul,
    abs_of_nonneg (div_nonneg (Nat.cast_nonneg _) F.unit_cast_pos.le)]
  have hlt := (F.finite_iff c).1 h
  exact not_le.1 ((F.infBits_le_iff (roundsMag_self F.fractionBits (F.bits c))).not.1 (by omega))

/-- Correct rounding in a format: a pattern `r` whose magnitude is the rounding of `w ≥ 0` units, bounded by the
infinity, is under its own sign the infinity past the overflow bound and else the nearest value, ties to even. -/
theorem correctly_rounded {r : α} {w : ℝ} {m : Nat} (hw : 0 ≤ w) (h : RoundsMag F.fractionBits w m)
    (hbits : F.bits r = min F.infBits m) {v : ℝ} (hv : v = signFactor (F.neg r) * w / F.unit) :
    (v ≤ -(F.overflow : ℝ) → F.neg r = true ∧ F.bits r = F.infBits) ∧
      ((F.overflow : ℝ) ≤ v → F.neg r = false ∧ F.bits r = F.infBits) ∧
        (|v| < (F.overflow : ℝ) →
          F.finite r = true ∧ (∀ c, F.finite c = true → distanceTo v (F.value r) ≤ distanceTo v (F.value c)) ∧
            (∀ c, F.finite c = true → F.value c ≠ F.value r →
              distanceTo v (F.value c) = distanceTo v (F.value r) → F.bits r % 2 = 0)) := by
  have hU := F.unit_cast_pos
  have hpos : (0 : ℝ) < F.overflow := by exact_mod_cast F.overflow_pos
  have hq : 0 ≤ w / F.unit := div_nonneg hw hU.le
  have hv' : v = signFactor (F.neg r) * (w / F.unit) := by rw [hv, mul_div_assoc]
  have hinf : (F.overflow : ℝ) ≤ w / F.unit → F.bits r = F.infBits := fun hle => by
    rw [hbits, min_eq_left ((F.infBits_le_iff h).2 hle)]
  refine ⟨fun hle => ?_, fun hle => ?_, fun hlt => ?_⟩
  · cases hs : F.neg r <;> rw [hs] at hv'
    · rw [signFactor_false] at hv'
      linarith
    · rw [signFactor_true] at hv'
      exact ⟨rfl, hinf (by linarith)⟩
  · cases hs : F.neg r <;> rw [hs] at hv'
    · rw [signFactor_false] at hv'
      exact ⟨rfl, hinf (by linarith)⟩
    · rw [signFactor_true] at hv'
      linarith
  · rw [hv', abs_mul, abs_signFactor, one_mul, abs_of_nonneg hq] at hlt
    have hm : m < F.infBits := not_le.1 ((F.infBits_le_iff h).not.2 hlt.not_ge)
    rw [min_eq_right hm.le] at hbits
    have hfin : F.finite r = true := (F.finite_iff r).2 (hbits ▸ hm)
    have hnear := fun c => (hbits ▸ h).signed_nearest hw (F.neg c) (F.neg r) (F.bits c)
    refine ⟨hfin, fun c hc => ?_, fun c hc hne heq => (hnear c).2 (fun hval => hne ?_) ?_⟩
    · rw [F.distanceTo_value v c _ w hv, F.distanceTo_value v r _ w hv]
      exact div_le_div_of_nonneg_right (hnear c).1 hU.le
    · have : (F.value c : ℝ) = F.value r := by rw [F.value_cast, F.value_cast, hval]
      exact_mod_cast this
    · rw [F.distanceTo_value v c _ w hv, F.distanceTo_value v r _ w hv] at heq
      exact (div_left_inj' hU.ne').1 heq

end BinaryFormat

end Sys2Proof.Machine
end

section
/-!
SUPPORT. Binary64 as signed magnitudes: what a pattern's sign and magnitude are, and that `f64OfRatio`, in which every
operation of `Sys2Proof/Machine/Float.lean` ends, rounds correctly (R8) and is exact on what binary64 holds.
-/

namespace Sys2Proof.Machine

/-- The exponent and fraction fields of a binary64 pattern, read as one number (R69). -/
def fbits (x : F64) : Nat := x.toNat % 2 ^ 63

theorem fsign_eq_decide (x : F64) : fsign x = decide (2 ^ 63 ≤ x.toNat) := by
  rw [fsign, ← BitVec.msb_eq_getLsbD_last, BitVec.msb_eq_decide]

theorem toNat_eq_sign_add_bits (x : F64) : x.toNat = (if fsign x then 2 ^ 63 else 0) + fbits x := by
  have := x.isLt
  rw [fsign_eq_decide, fbits]
  split <;> simp_all <;> omega

/-- A pattern is its sign and its magnitude. -/
theorem f64_ext {x y : F64} (hs : fsign x = fsign y) (hb : fbits x = fbits y) : x = y :=
  BitVec.eq_of_toNat_eq (by rw [toNat_eq_sign_add_bits x, toNat_eq_sign_add_bits y, hs, hb])

/-- Sign and magnitude of a pattern that is written as their sum. -/
theorem sign_and_bits_of_toNat {x : F64} {neg : Bool} {m : Nat} (hm : m < 2 ^ 63)
    (h : x.toNat = (if neg then 2 ^ 63 else 0) + m) : fsign x = neg ∧ fbits x = m := by
  rw [fsign_eq_decide, fbits, h]
  cases neg <;> simp <;> omega

theorem f64Exp_eq (x : F64) : f64Exp x = fbits x / 2 ^ 52 := by
  unfold f64Exp fbits
  omega

theorem f64Frac_eq (x : F64) : f64Frac x = fbits x % 2 ^ 52 := by
  unfold f64Frac fbits
  omega

theorem fbits_lt (x : F64) : fbits x < 2 ^ 63 := Nat.mod_lt _ (by norm_num)

theorem ffinite_iff (x : F64) : ffinite x = true ↔ fbits x < 2047 * 2 ^ 52 := by
  have := fbits_lt x
  simp only [ffinite, f64Exp_eq, bne_iff_ne]
  omega

theorem fisInf_iff (x : F64) : fisInf x = true ↔ fbits x = 2047 * 2 ^ 52 := by
  have := fbits_lt x
  simp only [fisInf, f64Exp_eq, f64Frac_eq, Bool.and_eq_true, beq_iff_eq]
  omega

theorem fisNaN_iff (x : F64) : fisNaN x = true ↔ 2047 * 2 ^ 52 < fbits x := by
  have := fbits_lt x
  simp only [fisNaN, f64Exp_eq, f64Frac_eq, Bool.and_eq_true, beq_iff_eq, bne_iff_ne]
  omega

theorem fisNaN_of_finite {x : F64} (h : ffinite x = true) : fisNaN x = false := by
  rw [ffinite_iff] at h
  rw [← Bool.not_eq_true, fisNaN_iff]
  omega

theorem fisInf_of_finite {x : F64} (h : ffinite x = true) : fisInf x = false := by
  rw [ffinite_iff] at h
  rw [← Bool.not_eq_true, fisInf_iff]
  omega

theorem fmag_eq (x : F64) : fmag x = magUnits 52 (fbits x) := by
  unfold fmag magUnits
  rw [f64Exp_eq, f64Frac_eq]
  split
  · omega
  · rfl

/-! ### The sign operations and the infinities -/

theorem fneg_sign_and_bits (x : F64) : fsign (fneg x) = !fsign x ∧ fbits (fneg x) = fbits x := by
  have hs : fsign (fneg x) = !fsign x := by simp [fsign, fneg]
  have hb : ∀ y : F64, fbits y = (y.setWidth 63).toNat := fun y => by simp [fbits]
  refine ⟨hs, ?_⟩
  rw [hb, hb, fneg, BitVec.setWidth_xor]
  simp

@[simp] theorem fsign_fneg (x : F64) : fsign (fneg x) = !fsign x := (fneg_sign_and_bits x).1
@[simp] theorem fbits_fneg (x : F64) : fbits (fneg x) = fbits x := (fneg_sign_and_bits x).2

@[simp] theorem fbits_fabs (x : F64) : fbits (fabs x) = fbits x := by
  have hb : ∀ y : F64, fbits y = (y.setWidth 63).toNat := fun y => by simp [fbits]
  have hmask : (0x7FFFFFFFFFFFFFFF#64).setWidth 63 = BitVec.allOnes 63 := by decide
  rw [hb, hb, fabs, BitVec.setWidth_and, hmask, BitVec.and_allOnes]

@[simp] theorem ffinite_fneg (x : F64) : ffinite (fneg x) = ffinite x := by
  rw [Bool.eq_iff_iff, ffinite_iff, ffinite_iff, fbits_fneg]

@[simp] theorem fisNaN_fneg (x : F64) : fisNaN (fneg x) = fisNaN x := by
  rw [Bool.eq_iff_iff, fisNaN_iff, fisNaN_iff, fbits_fneg]

@[simp] theorem fisNaN_fabs (x : F64) : fisNaN (fabs x) = fisNaN x := by
  rw [Bool.eq_iff_iff, fisNaN_iff, fisNaN_iff, fbits_fabs]

@[simp] theorem fsign_finfOf (neg : Bool) : fsign (finfOf neg) = neg := by revert neg; decide
@[simp] theorem fbits_finfOf (neg : Bool) : fbits (finfOf neg) = 2047 * 2 ^ 52 := by revert neg; decide

/-! ### Values -/

theorem unitsPerOne_cast_pos : (0 : ℝ) < unitsPerOne := by exact_mod_cast unitsPerOne_pos

theorem unitsPerOne_cast : (unitsPerOne : ℝ) = 2 ^ 1074 := by
  unfold unitsPerOne
  exact Nat.cast_pow 2 1074

theorem unitsPerOne_eq : unitsPerOne = 2 ^ 1074 :=
  Nat.cast_injective (R := ℝ) (unitsPerOne_cast.trans (Nat.cast_pow 2 1074).symm)

theorem two_pow_le_unitsPerOne {k : Nat} (h : k ≤ 1074) : 2 ^ k ≤ unitsPerOne := by
  rw [unitsPerOne_eq, Nat.pow_le_pow_iff_right one_lt_two]
  exact h

theorem unitsPerOne_dvd_two_pow {k : Nat} (h : 1074 ≤ k) : unitsPerOne ∣ 2 ^ k := by
  rw [unitsPerOne_eq]
  exact pow_dvd_pow 2 h

theorem fscaled_cast (x : F64) : (fscaled x : ℝ) = signFactor (fsign x) * magUnits 52 (fbits x) := by
  rw [fscaled, fmag_eq]
  cases fsign x <;> simp

theorem f64Value_cast (x : F64) :
    (f64Value x : ℝ) = signFactor (fsign x) * magUnits 52 (fbits x) / unitsPerOne := by
  rw [← fscaled_cast, f64Value]
  push_cast
  rfl

@[simp] theorem f64Value_fneg (x : F64) : f64Value (fneg x) = -f64Value x := by
  have h : (f64Value (fneg x) : ℝ) = -f64Value x := by
    rw [f64Value_cast, f64Value_cast, fsign_fneg, fbits_fneg]
    cases fsign x <;> simp [neg_div]
  exact_mod_cast h

/-! ### `f64OfRatio` -/

theorem f64OfRatio_sign_and_bits (neg : Bool) (n d : Nat) :
    fsign (f64OfRatio neg n d) = neg ∧ fbits (f64OfRatio neg n d) = min (2047 * 2 ^ 52) (roundBits 52 n d) := by
  have hmin : roundMag 53 (2047 * 2 ^ 52) n d = min (2047 * 2 ^ 52) (roundBits 52 n d) := roundMag_eq_min 52 _ n d
  refine sign_and_bits_of_toNat ?_ (hmin ▸ toNat_f64OfRatio neg n d)
  omega

@[simp] theorem fsign_f64OfRatio (neg : Bool) (n d : Nat) : fsign (f64OfRatio neg n d) = neg :=
  (f64OfRatio_sign_and_bits neg n d).1

theorem fbits_f64OfRatio (neg : Bool) (n d : Nat) :
    fbits (f64OfRatio neg n d) = min (2047 * 2 ^ 52) (roundBits 52 n d) := (f64OfRatio_sign_and_bits neg n d).2

theorem f64Overflow_cast : (f64Overflow : ℝ) = 2 ^ 1024 - 2 ^ 970 := by
  unfold f64Overflow
  simp only [Rat.cast_sub, Rat.cast_pow, Rat.cast_ofNat]

/-- The overflow bound in units of 2^-1074. -/
theorem f64Overflow_units : (f64Overflow : ℝ) * unitsPerOne * 2 = (2 ^ (52 + 2) - 1) * 2 ^ (2044 + 1) := by
  have h1 : (2 : ℝ) ^ 1024 = 2 ^ 54 * 2 ^ 970 := by rw [← pow_add]
  have h2 : (2 : ℝ) ^ (2044 + 1) = 2 ^ 970 * 2 ^ 1074 * 2 := by rw [← pow_add, ← pow_succ]
  rw [h2, f64Overflow_cast, unitsPerOne_cast, h1]
  generalize (2 : ℝ) ^ 970 = x, (2 : ℝ) ^ 1074 = y
  ring

/-- Binary64 (R69). -/
def binary64 : BinaryFormat F64 where
  finite := ffinite
  neg := fsign
  bits := fbits
  value := f64Value
  fractionBits := 52
  infBits := 2047 * 2 ^ 52
  unit := unitsPerOne
  overflow := f64Overflow
  unit_pos := unitsPerOne_pos
  overflow_pos := by
    have h : (0 : ℝ) < f64Overflow := by
      rw [f64Overflow_cast]
      exact sub_pos.2 (pow_lt_pow_right₀ (by norm_num) (by norm_num))
    exact_mod_cast h
  finite_iff := ffinite_iff
  value_cast := f64Value_cast
  infBits_le_iff {m w} h := by
    rw [le_div_iff₀ unitsPerOne_cast_pos, ← mul_le_mul_iff_left₀ (zero_lt_two' ℝ), f64Overflow_units, mul_comm w 2]
    exact h.infinity_le_iff (by norm_num) 2044

/-- A pattern whose magnitude is the rounding of `w ≥ 0` units is, under its own sign, the correct rounding (R8). -/
theorem roundsTo_of_bits {r : F64} {w : ℝ} {m : Nat} (hw : 0 ≤ w) (h : RoundsMag 52 w m)
    (hbits : fbits r = min (2047 * 2 ^ 52) m) : RoundsTo (signFactor (fsign r) * w / unitsPerOne) r := by
  obtain ⟨hneg, hpos, hfin⟩ := binary64.correctly_rounded hw h hbits rfl
  refine ⟨fun hle => ?_, fun hle => ?_, fun hlt => ?_⟩
  · obtain ⟨hs, hb⟩ := hneg hle
    exact f64_ext (hs.trans (fsign_finfOf true).symm) (hb.trans (fbits_finfOf true).symm)
  · obtain ⟨hs, hb⟩ := hpos hle
    exact f64_ext (hs.trans (fsign_finfOf false).symm) (hb.trans (fbits_finfOf false).symm)
  · obtain ⟨hr, hnear, htie⟩ := hfin hlt
    refine ⟨hr, hnear, fun c hc hne heq => ?_⟩
    have heven : fbits r % 2 = 0 := htie c hc hne heq
    rw [fbits] at heven
    rw [BitVec.getLsbD, Nat.testBit_zero, decide_eq_false_iff_not]
    omega

/-- `f64OfRatio` is the correct rounding of the signed quotient (R8). -/
theorem roundsTo_f64OfRatio (neg : Bool) (n : Nat) {d : Nat} (hd : 0 < d) :
    RoundsTo (signFactor neg * ((n : ℝ) / d) / unitsPerOne) (f64OfRatio neg n d) := by
  have h := roundsTo_of_bits (r := f64OfRatio neg n d) (by positivity) (roundsMag_roundBits (t := 52) (by norm_num) n hd)
    (fbits_f64OfRatio neg n d)
  rwa [fsign_f64OfRatio] at h

/-- A finite pattern is the correct rounding of its own value. -/
theorem roundsTo_self {x : F64} (h : ffinite x = true) : RoundsTo (f64Value x) x := by
  rw [f64Value_cast]
  exact roundsTo_of_bits (Nat.cast_nonneg _) (roundsMag_self 52 (fbits x)) (min_eq_right ((ffinite_iff x).1 h).le).symm

theorem abs_f64Value_lt {x : F64} (h : ffinite x = true) : |(f64Value x : ℝ)| < f64Overflow :=
  binary64.abs_value_lt h

/-- A magnitude that binary64 holds is given back exactly. -/
theorem fbits_f64OfRatio_exact (neg : Bool) {m : Nat} (hm : m < 2047 * 2 ^ 52) :
    fbits (f64OfRatio neg (magUnits 52 m) 1) = m := by
  have h := roundsMag_roundBits (t := 52) (by norm_num) (magUnits 52 m) one_pos
  rw [Nat.cast_one, div_one] at h
  rw [fbits_f64OfRatio, ← (roundsMag_self 52 m).unique h, min_eq_right hm.le]

/-- A whole number of units with a significand of at most 53 bits is given back exactly, unless it is too large. -/
theorem f64OfRatio_exact (neg : Bool) {a k : Nat} (ha : a ≤ 2 ^ 53) (hk : k ≤ 2044) :
    ffinite (f64OfRatio neg (a * 2 ^ k) 1) = true ∧
      (f64Value (f64OfRatio neg (a * 2 ^ k) 1) : ℝ) = signFactor neg * (a * 2 ^ k : Nat) / unitsPerOne := by
  obtain ⟨m, hm, hv⟩ := exists_magUnits_eq 52 k a ha
  have hlt : m < 2047 * 2 ^ 52 := by
    have := Nat.mul_le_mul_right (2 ^ 52) (by omega : k + 2 ≤ 2046)
    omega
  rw [← hv, ffinite_iff, f64Value_cast, fsign_f64OfRatio, fbits_f64OfRatio_exact neg hlt]
  exact ⟨hlt, rfl⟩

/-! ### Order -/

/-- The value of a rounding lies in every closed interval, with ends that binary64 holds, that the number lies in. -/
theorem RoundsTo.mem_interval {v : ℝ} {r lo hi : F64} (h : RoundsTo v r) (hlo : ffinite lo = true)
    (hhi : ffinite hi = true) (hle : (f64Value lo : ℝ) ≤ v) (hge : v ≤ f64Value hi) :
    ffinite r = true ∧ f64Value lo ≤ f64Value r ∧ f64Value r ≤ f64Value hi := by
  have hl := abs_lt.1 (abs_f64Value_lt hlo)
  have hh := abs_lt.1 (abs_f64Value_lt hhi)
  obtain ⟨hfin, hnear, -⟩ := h.2.2 (abs_lt.2 ⟨by linarith, by linarith⟩)
  refine ⟨hfin, ?_, ?_⟩
  · by_contra hlt
    have hlt' : (f64Value r : ℝ) < f64Value lo := by exact_mod_cast not_le.1 hlt
    have := hnear lo hlo
    rw [distanceTo, distanceTo, abs_of_neg (by linarith), abs_of_nonpos (by linarith)] at this
    linarith
  · by_contra hlt
    have hlt' : (f64Value hi : ℝ) < f64Value r := by exact_mod_cast not_le.1 hlt
    have := hnear hi hhi
    rw [distanceTo, distanceTo, abs_of_pos (by linarith), abs_of_nonneg (by linarith)] at this
    linarith

end Sys2Proof.Machine
end

section
/-!
SUPPORT. What each operation of R8 does to finite operands: which `f64OfRatio` it is, and from that its correct
rounding.
-/

namespace Sys2Proof.Machine

section
variable {a b x : F64}

/-! ### Sums, products, quotients and literals -/

theorem signFactor_mul_natAbs (n : ℤ) : signFactor (decide (n < 0)) * (n.natAbs : ℝ) = n := by
  rcases lt_or_ge n 0 with h | h
  · rw [decide_eq_true h, signFactor_true, Nat.cast_natAbs, abs_of_neg h]
    push_cast
    ring
  · rw [decide_eq_false h.not_gt, signFactor_false, Nat.cast_natAbs, abs_of_nonneg h, one_mul]

theorem signFactor_bne (σ τ : Bool) : signFactor (σ != τ) = signFactor σ * signFactor τ := by
  cases σ <;> cases τ <;> simp

/-- A finite sum is the rounded sum of the units, with the sign of a zero sum apart (R8). -/
theorem fadd_of_finite (ha : ffinite a = true) (hb : ffinite b = true) :
    ∃ neg, fadd a b = f64OfRatio neg (fscaled a + fscaled b).natAbs 1 ∧
      signFactor neg * ((fscaled a + fscaled b).natAbs : ℝ) = (fscaled a + fscaled b : ℤ) := by
  simp only [fadd, fisNaN_of_finite ha, fisNaN_of_finite hb, fisInf_of_finite ha, fisInf_of_finite hb, Bool.or_self,
    Bool.false_eq_true, if_false]
  split
  · next h => exact ⟨_, by rw [h]; rfl, by simp [h]⟩
  · exact ⟨_, rfl, signFactor_mul_natAbs _⟩

theorem roundsTo_fadd (ha : ffinite a = true) (hb : ffinite b = true) :
    RoundsTo ((f64Value a + f64Value b : ℚ) : ℝ) (fadd a b) := by
  obtain ⟨neg, heq, hsum⟩ := fadd_of_finite ha hb
  have h := roundsTo_f64OfRatio neg (fscaled a + fscaled b).natAbs one_pos
  rw [Nat.cast_one, div_one, hsum, ← heq] at h
  convert h using 1
  push_cast [f64Value]
  ring

theorem roundsTo_fsub (ha : ffinite a = true) (hb : ffinite b = true) :
    RoundsTo ((f64Value a - f64Value b : ℚ) : ℝ) (fsub a b) := by
  rw [sub_eq_add_neg, ← f64Value_fneg]
  exact roundsTo_fadd ha (by rwa [ffinite_fneg])

theorem fmul_of_finite (ha : ffinite a = true) (hb : ffinite b = true) :
    fmul a b = f64OfRatio (fsign a != fsign b) (fmag a * fmag b) unitsPerOne := by
  simp [fmul, fisNaN_of_finite ha, fisNaN_of_finite hb, fisInf_of_finite ha, fisInf_of_finite hb]

theorem roundsTo_fmul (ha : ffinite a = true) (hb : ffinite b = true) :
    RoundsTo ((f64Value a * f64Value b : ℚ) : ℝ) (fmul a b) := by
  have h := roundsTo_f64OfRatio (fsign a != fsign b) (fmag a * fmag b) unitsPerOne_pos
  rw [← fmul_of_finite ha hb, signFactor_bne, fmag_eq, fmag_eq] at h
  convert h using 1
  rw [Rat.cast_mul, f64Value_cast, f64Value_cast]
  push_cast
  ring

theorem fmag_ne_zero (hb : f64Value b ≠ 0) : fmag b ≠ 0 := fun h => hb <| by
  rw [f64Value_eq_zero_iff, fscaled, h]
  simp

theorem fdiv_of_finite (ha : ffinite a = true) (hb : ffinite b = true) (h0 : fmag b ≠ 0) :
    fdiv a b = f64OfRatio (fsign a != fsign b) (fmag a * unitsPerOne) (fmag b) := by
  simp [fdiv, fisNaN_of_finite ha, fisNaN_of_finite hb, fisInf_of_finite ha, fisInf_of_finite hb, h0]

theorem roundsTo_fdiv (ha : ffinite a = true) (hb : ffinite b = true) (h0 : f64Value b ≠ 0) :
    RoundsTo ((f64Value a / f64Value b : ℚ) : ℝ) (fdiv a b) := by
  have hU := unitsPerOne_cast_pos.ne'
  have hmag := fmag_ne_zero h0
  have h := roundsTo_f64OfRatio (fsign a != fsign b) (fmag a * unitsPerOne) (Nat.pos_of_ne_zero hmag)
  rw [← fdiv_of_finite ha hb hmag, signFactor_bne] at h
  rw [fmag_eq] at hmag
  have hmag' : (magUnits 52 (fbits b) : ℝ) ≠ 0 := by exact_mod_cast hmag
  convert h using 1
  rw [Rat.cast_div, f64Value_cast, f64Value_cast, fmag_eq, fmag_eq]
  push_cast
  cases fsign a <;> cases fsign b <;> simp only [signFactor_true, signFactor_false] <;> field_simp

theorem roundsTo_flit (n : Nat) {d : Nat} (hd : 0 < d) : RoundsTo (((n : ℚ) / (d : ℚ) : ℚ) : ℝ) (flit n d) := by
  have hU := unitsPerOne_cast_pos.ne'
  have h := roundsTo_f64OfRatio false (n * unitsPerOne) hd
  rw [flit]
  convert h using 1
  push_cast
  rw [signFactor_false]
  field_simp

/-! ### The square root -/

theorem isqrt_eq_sqrt (fuel n : Nat) (h : n < 4 ^ fuel) : isqrt fuel n = Nat.sqrt n := by
  induction fuel generalizing n with
  | zero => simp_all [isqrt]
  | succ fuel ih =>
    have hq : isqrt fuel (n / 4) = Nat.sqrt (n / 4) := ih _ (by rw [pow_succ] at h; omega)
    have hlo := Nat.sqrt_le (n / 4)
    have hhi := Nat.lt_succ_sqrt (n / 4)
    rw [isqrt, hq]
    generalize Nat.sqrt (n / 4) = q at *
    split
    · exact Nat.eq_sqrt.2 ⟨by assumption, by nlinarith [Nat.div_add_mod n 4, Nat.mod_lt n (by norm_num : 4 > 0)]⟩
    · exact Nat.eq_sqrt.2 ⟨by nlinarith [Nat.div_mul_le_self n 4], by omega⟩

/-- Twice the root as `fsqrt` passes it to the rounding: the whole part, and half a unit more when it is not exact. -/
def rootHalves (n : Nat) : Nat := 2 * Nat.sqrt n + if Nat.sqrt n * Nat.sqrt n = n then 0 else 1

theorem rootHalves_le_iff (n c : Nat) : rootHalves n ≤ 2 * c ↔ n ≤ c * c := by
  unfold rootHalves
  split
  · next h =>
    rw [Nat.add_zero, Nat.mul_le_mul_left_iff two_pos]
    exact ⟨fun hle => h ▸ Nat.mul_self_le_mul_self hle, fun hle => Nat.mul_self_le_mul_self_iff.1 (h.trans_le hle)⟩
  · next h =>
    have hlt : 2 * Nat.sqrt n + 1 ≤ 2 * c ↔ Nat.sqrt n < c := by omega
    rw [hlt, Nat.sqrt_lt]
    refine ⟨le_of_lt, fun hle => lt_of_le_of_ne hle ?_⟩
    rintro rfl
    exact h (by rw [Nat.sqrt_eq])

theorem le_rootHalves_iff (n c : Nat) : 2 * c ≤ rootHalves n ↔ c * c ≤ n := by
  rw [← Nat.le_sqrt]
  unfold rootHalves
  split <;> omega

/-- The rounded operand of `fsqrt` compares with whole numbers as the exact root does. -/
theorem half_root_compare (n c : Nat) :
    ((rootHalves n : ℝ) / 2 ≤ c ↔ √(n : ℝ) ≤ c) ∧ ((c : ℝ) ≤ (rootHalves n : ℝ) / 2 ↔ (c : ℝ) ≤ √(n : ℝ)) := by
  constructor
  · rw [div_le_iff₀ two_pos, Real.sqrt_le_left (Nat.cast_nonneg c), mul_comm, sq]
    exact_mod_cast rootHalves_le_iff n c
  · rw [le_div_iff₀ two_pos, Real.le_sqrt (Nat.cast_nonneg c) (Nat.cast_nonneg n), mul_comm, sq]
    exact_mod_cast le_rootHalves_iff n c

/-- Above the binades of unit and half steps every midpoint is whole. -/
theorem midUnits_even {t j : Nat} (hj : 2 ^ (t + 1) ≤ j) : ∃ c, midUnits t j = 2 * c := by
  have heven : ∀ i, 2 ^ (t + 1) ≤ i → 2 ∣ magUnits t i := fun i hi => by
    obtain ⟨k, r, rfl, hr, hk⟩ := exists_significand t i
    rw [magUnits_eq hr.le hk]
    have hk0 : k ≠ 0 := by
      rintro rfl
      omega
    exact (dvd_pow_self 2 hk0).mul_left r
  exact (heven j hj).add (heven (j + 1) (by omega))

theorem midUnits_first_even (t : Nat) : midUnits t (2 ^ (t + 1)) = 2 * (2 ^ (t + 1) + 1) := by
  have hfirst : 2 ^ (t + 1) = 1 * 2 ^ t + 2 ^ t := by ring
  have hpow : 2 ^ (t + 1) = 2 ^ t + 2 ^ t := by ring
  have hpos := Nat.two_pow_pos t
  rw [midUnits, hfirst, magUnits_eq (by omega) (.inr le_rfl), Nat.add_assoc,
    magUnits_eq (by omega) (.inr (by omega))]
  ring

/-- Rounding sees a number above those binades only through its comparisons with whole numbers. -/
theorem RoundsMag.of_compare {t m : Nat} {v w : ℝ} (h : RoundsMag t w m) (hw : 2 ^ (t + 1) + 1 < w)
    (hle : ∀ c : Nat, w ≤ c ↔ v ≤ c) (hge : ∀ c : Nat, (c : ℝ) ≤ w ↔ (c : ℝ) ≤ v) : RoundsMag t v m := by
  have hm : 2 ^ (t + 1) < m := by
    by_contra hlt
    have := h.le_midUnits_of_le (not_lt.1 hlt)
    rw [midUnits_first_even] at this
    push_cast at this
    linarith
  have hmid : ∀ j, 2 ^ (t + 1) ≤ j →
      (2 * w ≤ midUnits t j ↔ 2 * v ≤ midUnits t j) ∧ ((midUnits t j : ℝ) ≤ 2 * w ↔ (midUnits t j : ℝ) ≤ 2 * v) :=
    fun j hj => by
      obtain ⟨c, hc⟩ := midUnits_even hj
      rw [hc, Nat.cast_mul, Nat.cast_ofNat]
      simpa only [mul_le_mul_iff_right₀ (zero_lt_two' ℝ)] using ⟨hle c, hge c⟩
  have hat := hmid m hm.le
  have hbelow : ∀ j, j + 1 = m → _ := fun j hj => hmid j (by omega)
  refine ⟨hat.1.1 h.above, fun heq => h.above_tie ?_, fun j hj => (hbelow j hj).2.1 (h.below j hj),
    fun j hj heq => h.below_tie j hj ?_⟩
  · exact le_antisymm h.above (hat.2.2 heq.ge)
  · exact le_antisymm (h.below j hj) ((hbelow j hj).1.2 heq.ge)

theorem fsqrt_of_pos (hx : ffinite x = true) (h0 : fmag x ≠ 0) (hs : fsign x = false) :
    fsqrt x = f64OfRatio false (rootHalves (fmag x * unitsPerOne)) 2 := by
  have hfuel : fmag x * unitsPerOne < 4 ^ (Nat.log2 (fmag x * unitsPerOne) / 2 + 1) := by
    rw [show 4 = 2 ^ 2 by norm_num, ← pow_mul]
    exact Nat.lt_log2_self.trans_le (Nat.pow_le_pow_right two_pos (by omega))
  simp [fsqrt, fisNaN_of_finite hx, fisInf_of_finite hx, h0, hs, isqrt_eq_sqrt _ _ hfuel, rootHalves]

theorem fsign_eq_false_of_nonneg (h : 0 ≤ f64Value x) (h0 : fmag x ≠ 0) : fsign x = false := by
  rw [f64Value_nonneg_iff, fscaled] at h
  by_contra hs
  rw [if_pos (by simpa using hs)] at h
  omega

/-- The operand of the root is far above the binades of unit and half steps. -/
theorem le_rootHalves_of_pos (h0 : fmag x ≠ 0) : 2 * 2 ^ 54 ≤ rootHalves (fmag x * unitsPerOne) := by
  rw [le_rootHalves_iff]
  calc 2 ^ 54 * 2 ^ 54 = 2 ^ 108 := by rw [← pow_add]
    _ ≤ unitsPerOne := two_pow_le_unitsPerOne (by norm_num)
    _ ≤ fmag x * unitsPerOne := Nat.le_mul_of_pos_left _ (Nat.pos_of_ne_zero h0)

theorem roundsTo_fsqrt (hx : ffinite x = true) (hv : 0 ≤ f64Value x) :
    RoundsTo (√((f64Value x : ℚ) : ℝ)) (fsqrt x) := by
  by_cases h0 : fmag x = 0
  · have hval : f64Value x = 0 := by rw [f64Value_eq_zero_iff, fscaled, h0]; simp
    have hself := roundsTo_self hx
    have heq : fsqrt x = x := by simp [fsqrt, fisNaN_of_finite hx, h0]
    rwa [heq, hval, Rat.cast_zero, Real.sqrt_zero, ← Rat.cast_zero, ← hval]
  · have hs := fsign_eq_false_of_nonneg hv h0
    have hbig : ((2 * 2 ^ 54 : Nat) : ℝ) ≤ rootHalves (fmag x * unitsPerOne) := by
      exact_mod_cast le_rootHalves_of_pos h0
    have hround := roundsMag_roundBits (t := 52) (by norm_num) (rootHalves (fmag x * unitsPerOne)) two_pos
    have hroot := hround.of_compare (v := √((fmag x * unitsPerOne : Nat) : ℝ))
      (by push_cast at hbig ⊢; linarith) (fun c => (half_root_compare _ c).1) (fun c => (half_root_compare _ c).2)
    have h := roundsTo_of_bits (r := fsqrt x) (Real.sqrt_nonneg _) hroot
      (by rw [fsqrt_of_pos hx h0 hs, fbits_f64OfRatio])
    rw [fsqrt_of_pos hx h0 hs] at h ⊢
    convert h using 1
    rw [f64Value_cast, ← fmag_eq, hs, fsign_f64OfRatio, signFactor_false, one_mul, one_mul]
    have hU := unitsPerOne_cast_pos
    have hsq : (fmag x : ℝ) / unitsPerOne = (fmag x * unitsPerOne : Nat) / (unitsPerOne : ℝ) ^ 2 := by
      push_cast
      field_simp
    rw [hsq, Real.sqrt_div (Nat.cast_nonneg _), Real.sqrt_sq hU.le]

end

end Sys2Proof.Machine
end

section
/-!
SUPPORT. The operations that are exact, or that only order values: floor and ceil (R8), the comparisons (R8), and the
conversions to and from binary32 (R11).
-/

namespace Sys2Proof.Machine

section
variable {a b x : F64}

/-! ### Floor and ceil -/

/-- A finite magnitude is a whole number, or below 2^52. -/
theorem fmag_whole_or_small (x : F64) : unitsPerOne ∣ fmag x ∨ fmag x < 2 ^ 52 * unitsPerOne := by
  rw [fmag_eq]
  obtain ⟨k, r, hb, hr, hk⟩ := exists_significand 52 (fbits x)
  rw [hb, magUnits_eq hr.le hk]
  rcases le_or_gt 1074 k with h | h
  · exact .inl ((unitsPerOne_dvd_two_pow h).mul_left r)
  · right
    calc r * 2 ^ k < 2 ^ 53 * 2 ^ k := Nat.mul_lt_mul_of_pos_right hr (Nat.two_pow_pos k)
      _ = 2 ^ 52 * 2 ^ (k + 1) := by ring
      _ ≤ 2 ^ 52 * unitsPerOne := Nat.mul_le_mul_left _ (two_pow_le_unitsPerOne h)

theorem natAbs_fscaled (x : F64) : (fscaled x).natAbs = fmag x := by
  unfold fscaled
  split <;> simp

/-- The floor's magnitude is one that binary64 holds. -/
theorem f64OfRatio_floor_exact (hx : ffinite x = true) (neg : Bool) :
    ffinite (f64OfRatio neg ((fscaled x / (unitsPerOne : ℤ)).natAbs * unitsPerOne) 1) = true ∧
      (f64Value (f64OfRatio neg ((fscaled x / (unitsPerOne : ℤ)).natAbs * unitsPerOne) 1) : ℝ) =
        signFactor neg * ((fscaled x / (unitsPerOne : ℤ)).natAbs : ℝ) := by
  have hU := unitsPerOne_cast_pos.ne'
  have hpos : (0 : ℤ) < unitsPerOne := by exact_mod_cast unitsPerOne_pos
  rcases fmag_whole_or_small x with hdvd | hsmall
  · have hint : (unitsPerOne : ℤ) ∣ fscaled x := by rwa [Int.natCast_dvd, natAbs_fscaled]
    have hmag : (fscaled x / (unitsPerOne : ℤ)).natAbs * unitsPerOne = magUnits 52 (fbits x) := by
      rw [← fmag_eq, ← natAbs_fscaled, ← Int.natAbs_natCast unitsPerOne, ← Int.natAbs_mul, Int.natAbs_natCast,
        Int.ediv_mul_cancel hint]
    have hbits := (ffinite_iff x).1 hx
    rw [ffinite_iff, f64Value_cast, fsign_f64OfRatio, hmag, fbits_f64OfRatio_exact neg hbits, ← hmag]
    refine ⟨hbits, ?_⟩
    push_cast
    field_simp
  · have hN : (fscaled x / (unitsPerOne : ℤ)).natAbs ≤ 2 ^ 53 := by
      have habs : ((fscaled x).natAbs : ℤ) < 2 ^ 52 * unitsPerOne := by
        rw [natAbs_fscaled]
        exact_mod_cast hsmall
      have hlo : -2 ^ 52 ≤ fscaled x / (unitsPerOne : ℤ) := by
        rw [Int.le_ediv_iff_mul_le hpos]
        omega
      have hhi : fscaled x / (unitsPerOne : ℤ) < 2 ^ 52 := by
        rw [Int.ediv_lt_iff_lt_mul hpos]
        omega
      omega
    have h := f64OfRatio_exact neg hN (by norm_num : 1074 ≤ 2044)
    rw [← unitsPerOne_eq] at h
    refine ⟨h.1, h.2.trans ?_⟩
    push_cast
    field_simp

/-- The floor of a value has its sign, or is zero. -/
theorem signFactor_mul_floor (x : F64) :
    signFactor (fsign x) * ((fscaled x / (unitsPerOne : ℤ)).natAbs : ℝ) = (fscaled x / (unitsPerOne : ℤ) : ℤ) := by
  have hpos : (0 : ℤ) < unitsPerOne := by exact_mod_cast unitsPerOne_pos
  have hscaled : fscaled x = if fsign x then -(fmag x : ℤ) else fmag x := rfl
  cases hs : fsign x
  · have : 0 ≤ fscaled x / (unitsPerOne : ℤ) := Int.ediv_nonneg (by simp [hscaled, hs]) hpos.le
    rw [signFactor_false, one_mul, Nat.cast_natAbs, abs_of_nonneg this]
  · have : fscaled x / (unitsPerOne : ℤ) ≤ 0 := by
      rw [← not_lt, Int.lt_iff_add_one_le, Int.le_ediv_iff_mul_le hpos]
      simp [hscaled, hs]
      omega
    rw [signFactor_true, Nat.cast_natAbs, abs_of_nonpos this]
    push_cast
    ring

theorem ffloor_of_finite (hx : ffinite x = true) :
    ffloor x = f64OfRatio (fsign x) ((fscaled x / (unitsPerOne : ℤ)).natAbs * unitsPerOne) 1 := by
  simp [ffloor, fisNaN_of_finite hx, fisInf_of_finite hx]

theorem ffloor_exact (hx : ffinite x = true) :
    ffinite (ffloor x) = true ∧ f64Value (ffloor x) = (⌊f64Value x⌋ : ℚ) ∧ fsign (ffloor x) = fsign x := by
  obtain ⟨hfin, hval⟩ := f64OfRatio_floor_exact hx (fsign x)
  rw [← ffloor_of_finite hx] at hfin hval
  refine ⟨hfin, ?_, by rw [ffloor_of_finite hx, fsign_f64OfRatio]⟩
  have hfloor : ⌊f64Value x⌋ = fscaled x / (unitsPerOne : ℤ) := Rat.floor_intCast_div_natCast _ _
  rw [signFactor_mul_floor, ← hfloor] at hval
  exact_mod_cast hval

theorem fscaled_fneg (x : F64) : fscaled (fneg x) = -fscaled x := by
  simp only [fscaled, fmag_eq, fsign_fneg, fbits_fneg]
  cases fsign x <;> simp

/-- The ceiling is the floor under both signs. -/
theorem fceil_eq_fneg_ffloor (hx : ffinite x = true) : fceil x = fneg (ffloor (fneg x)) := by
  have heq : fceil x = f64OfRatio (fsign x) ((-(-(fscaled x) / (unitsPerOne : ℤ))).natAbs * unitsPerOne) 1 := by
    simp [fceil, fisNaN_of_finite hx, fisInf_of_finite hx]
  rw [heq, ffloor_of_finite (by rwa [ffinite_fneg]), fscaled_fneg, Int.natAbs_neg]
  exact f64_ext (by simp) (by simp [fbits_f64OfRatio])

theorem fceil_exact (hx : ffinite x = true) :
    ffinite (fceil x) = true ∧ f64Value (fceil x) = (⌈f64Value x⌉ : ℚ) ∧ fsign (fceil x) = fsign x := by
  obtain ⟨hfin, hval, hs⟩ := ffloor_exact (x := fneg x) (by rwa [ffinite_fneg])
  rw [fceil_eq_fneg_ffloor hx, ffinite_fneg, f64Value_fneg, fsign_fneg, hval, hs, f64Value_fneg, Int.floor_neg]
  exact ⟨hfin, by push_cast; ring, by simp⟩

/-! ### Comparisons -/

/-- The order `forder` of the comparisons is that of the values (R8). -/
theorem forder_lt_iff (a b : F64) : forder a < forder b ↔ fscaled a < fscaled b := by
  have hforder : ∀ c : F64, forder c = if fsign c then -(fbits c : ℤ) else fbits c := fun _ => rfl
  have hscaled : ∀ c : F64, fscaled c = if fsign c then -(magUnits 52 (fbits c) : ℤ) else magUnits 52 (fbits c) :=
    fun c => by rw [fscaled, fmag_eq]
  have hlt := (magUnits_strictMono 52).lt_iff_lt (a := fbits a) (b := fbits b)
  have hgt := (magUnits_strictMono 52).lt_iff_lt (a := fbits b) (b := fbits a)
  have ha := magUnits_eq_zero_iff 52 (fbits a)
  have hb := magUnits_eq_zero_iff 52 (fbits b)
  rw [hforder, hforder, hscaled, hscaled]
  cases fsign a <;> cases fsign b
  · simpa using hlt.symm
  · simp
    omega
  · simp
    omega
  · simpa using hgt.symm

theorem f64Value_lt_iff (a b : F64) : f64Value a < f64Value b ↔ fscaled a < fscaled b := by
  have h : (0 : ℚ) < unitsPerOne := by exact_mod_cast unitsPerOne_pos
  rw [f64Value, f64Value, div_lt_div_iff_of_pos_right h]
  exact_mod_cast Iff.rfl

theorem flt_iff (ha : ffinite a = true) (hb : ffinite b = true) : flt a b = true ↔ f64Value a < f64Value b := by
  rw [f64Value_lt_iff, ← forder_lt_iff]
  simp [flt, fisNaN_of_finite ha, fisNaN_of_finite hb]

theorem fle_iff (ha : ffinite a = true) (hb : ffinite b = true) : fle a b = true ↔ f64Value a ≤ f64Value b := by
  rw [← not_lt, f64Value_lt_iff, ← forder_lt_iff, not_lt]
  simp [fle, fisNaN_of_finite ha, fisNaN_of_finite hb]

theorem feq_iff (ha : ffinite a = true) (hb : ffinite b = true) : feq a b = true ↔ f64Value a = f64Value b := by
  have h : feq a b = true ↔ forder a = forder b := by simp [feq, fisNaN_of_finite ha, fisNaN_of_finite hb]
  have hab := forder_lt_iff a b
  have hba := forder_lt_iff b a
  rw [← f64Value_lt_iff] at hab hba
  rw [h, eq_iff_le_not_lt, eq_iff_le_not_lt, ← not_lt, ← not_lt, hab, hba]

/-- Each comparison is false with a NaN (R8). -/
theorem comparisons_of_nan (h : fisNaN a = true ∨ fisNaN b = true) :
    flt a b = false ∧ fle a b = false ∧ feq a b = false := by
  rcases h with h | h <;> simp [flt, fle, feq, h]

/-! ### Binary32 -/

/-- The exponent and fraction fields of a binary32 pattern, read as one number (R71). -/
def f32bits (w : F32) : Nat := w.toNat % 2 ^ 31

theorem toNat_eq_sign_add_f32bits (w : F32) : w.toNat = (if w.getLsbD 31 then 2 ^ 31 else 0) + f32bits w := by
  have := w.isLt
  have hs : w.getLsbD 31 = decide (2 ^ 31 ≤ w.toNat) := by
    rw [← BitVec.msb_eq_getLsbD_last, BitVec.msb_eq_decide]
  rw [hs, f32bits]
  split <;> simp_all <;> omega

theorem f32_ext {v w : F32} (hs : v.getLsbD 31 = w.getLsbD 31) (hb : f32bits v = f32bits w) : v = w :=
  BitVec.eq_of_toNat_eq (by rw [toNat_eq_sign_add_f32bits v, toNat_eq_sign_add_f32bits w, hs, hb])

theorem f32Exp_eq (w : F32) : w.toNat / 2 ^ 23 % 2 ^ 8 = f32bits w / 2 ^ 23 := by
  unfold f32bits
  omega

theorem f32Finite_iff (w : F32) : f32Finite w = true ↔ f32bits w < 255 * 2 ^ 23 := by
  have : f32bits w < 2 ^ 31 := Nat.mod_lt _ (by norm_num)
  simp only [f32Finite, f32Exp_eq, bne_iff_ne]
  omega

/-- The magnitude of a binary32 pattern as the model's definitions write it. -/
theorem f32_magnitude_eq (w : F32) :
    (if w.toNat / 2 ^ 23 % 2 ^ 8 = 0 then w.toNat % 2 ^ 23
      else (2 ^ 23 + w.toNat % 2 ^ 23) * 2 ^ (w.toNat / 2 ^ 23 % 2 ^ 8 - 1)) = magUnits 23 (f32bits w) := by
  have hfrac : w.toNat % 2 ^ 23 = f32bits w % 2 ^ 23 := by
    unfold f32bits
    omega
  rw [magUnits, f32Exp_eq, hfrac]
  split
  · omega
  · rfl

theorem f32Value_eq (w : F32) :
    f32Value w = (if w.getLsbD 31 then -1 else 1) * (magUnits 23 (f32bits w) : ℚ) / 2 ^ 149 := by
  rw [← f32_magnitude_eq]
  rfl

theorem f32Value_cast (w : F32) :
    (f32Value w : ℝ) = signFactor (w.getLsbD 31) * magUnits 23 (f32bits w) / (2 ^ 149 : Nat) := by
  rw [f32Value_eq, Nat.cast_pow, Nat.cast_ofNat, signFactor]
  push_cast [apply_ite ((↑) : ℚ → ℝ)]
  rfl

/-- Binary32 (R71). -/
def binary32 : BinaryFormat F32 where
  finite := f32Finite
  neg := fun w => w.getLsbD 31
  bits := f32bits
  value := f32Value
  fractionBits := 23
  infBits := 255 * 2 ^ 23
  unit := 2 ^ 149
  overflow := f32Overflow
  unit_pos := by norm_num
  overflow_pos := by norm_num [f32Overflow]
  finite_iff := f32Finite_iff
  value_cast := f32Value_cast
  infBits_le_iff {m w} h := by
    have hiff := h.infinity_le_iff (by norm_num) 252
    rw [hiff, le_div_iff₀ (by positivity), f32Overflow]
    push_cast
    norm_num
    constructor <;> intro <;> linarith

theorem unitsPerF32_cast : (unitsPerF32 : ℝ) = 2 ^ 925 := by
  unfold unitsPerF32
  exact Nat.cast_pow 2 925

theorem unitsPerF32_eq : unitsPerF32 = 2 ^ 925 :=
  Nat.cast_injective (R := ℝ) (unitsPerF32_cast.trans (Nat.cast_pow 2 925).symm)

theorem unitsPerOne_eq_mul : (unitsPerOne : ℝ) = unitsPerF32 * (2 ^ 149 : Nat) := by
  rw [unitsPerOne_cast, unitsPerF32_cast, Nat.cast_pow, Nat.cast_ofNat, ← pow_add]

/-- Sign and magnitude of a binary32 pattern that is written as their sum. -/
theorem sign_and_f32bits_of_ofNat (neg : Bool) {m : Nat} (hm : m < 2 ^ 31) :
    (BitVec.ofNat 32 ((if neg then 2 ^ 31 else 0) + m)).getLsbD 31 = neg ∧
      f32bits (BitVec.ofNat 32 ((if neg then 2 ^ 31 else 0) + m)) = m := by
  rw [f32bits, ← BitVec.msb_eq_getLsbD_last, BitVec.msb_eq_decide, BitVec.toNat_ofNat]
  cases neg <;> simp <;> omega

theorem f32OfF64_of_finite {v : F64} (hv : ffinite v = true) :
    (f32OfF64 v).getLsbD 31 = fsign v ∧
      f32bits (f32OfF64 v) = min (255 * 2 ^ 23) (roundBits 23 (fmag v) unitsPerF32) := by
  have heq : f32OfF64 v = BitVec.ofNat 32
      ((if fsign v then 2 ^ 31 else 0) + roundMag 24 (255 * 2 ^ 23) (fmag v) unitsPerF32) := by
    simp [f32OfF64, fisNaN_of_finite hv, fisInf_of_finite hv]
  have hmin : roundMag 24 (255 * 2 ^ 23) (fmag v) unitsPerF32 =
      min (255 * 2 ^ 23) (roundBits 23 (fmag v) unitsPerF32) := roundMag_eq_min 23 _ _ _
  rw [heq, hmin]
  exact sign_and_f32bits_of_ofNat _ (by omega)

/-- `f32` rounds once (R11). -/
theorem roundsTo32_f32OfF64 {v : F64} (hv : ffinite v = true) : RoundsTo32 ((f64Value v : ℚ) : ℝ) (f32OfF64 v) := by
  obtain ⟨hsign, hbits⟩ := f32OfF64_of_finite hv
  have hpos : 0 < unitsPerF32 := by
    rw [unitsPerF32_eq]
    positivity
  have hpos' : (0 : ℝ) < unitsPerF32 := by exact_mod_cast hpos
  have hvalue : (f64Value v : ℝ) =
      signFactor (binary32.neg (f32OfF64 v)) * ((fmag v : ℝ) / unitsPerF32) / binary32.unit := by
    have hneg : binary32.neg (f32OfF64 v) = fsign v := hsign
    have hunit : binary32.unit = 2 ^ 149 := rfl
    rw [hneg, hunit, f64Value_cast, ← fmag_eq, unitsPerOne_eq_mul]
    field_simp
  obtain ⟨hneg, hinf, hfin⟩ := binary32.correctly_rounded (by positivity)
    (roundsMag_roundBits (t := 23) (by norm_num) (fmag v) hpos) hbits hvalue
  refine ⟨fun hle => ?_, fun hle => ?_, fun hlt => ?_⟩
  · obtain ⟨hs, hb⟩ := hneg hle
    exact f32_ext hs hb
  · obtain ⟨hs, hb⟩ := hinf hle
    exact f32_ext hs hb
  · obtain ⟨hr, hnear, htie⟩ := hfin hlt
    refine ⟨hr, hnear, fun c hc hne heq => ?_⟩
    have heven : f32bits (f32OfF64 v) % 2 = 0 := htie c hc hne heq
    rw [f32bits] at heven
    rw [BitVec.getLsbD, Nat.testBit_zero, decide_eq_false_iff_not]
    omega

/-- `f64` is exact (R11). -/
theorem f64OfF32_exact {w : F32} (hw : f32Finite w = true) :
    ffinite (f64OfF32 w) = true ∧ f64Value (f64OfF32 w) = f32Value w := by
  have htop : w.toNat / 2 ^ 23 % 2 ^ 8 ≠ 255 := by simpa [f32Finite] using hw
  obtain ⟨k, r, hb, hr, hk⟩ := exists_significand 23 (f32bits w)
  have hmag : magUnits 23 (f32bits w) = r * 2 ^ k := by rw [hb, magUnits_eq hr.le hk]
  have heq : f64OfF32 w = f64OfRatio (w.getLsbD 31) (r * 2 ^ (k + 925)) 1 := by
    rw [pow_add, ← Nat.mul_assoc, ← hmag, ← f32_magnitude_eq, ← unitsPerF32_eq]
    simp only [f64OfF32, if_neg htop]
  have hk253 : k ≤ 253 := by
    have := (f32Finite_iff w).1 hw
    omega
  obtain ⟨hfin, hval⟩ := f64OfRatio_exact (w.getLsbD 31) (a := r) (k := k + 925) (by omega) (by omega)
  rw [← heq] at hfin hval
  refine ⟨hfin, ?_⟩
  have hpos : (unitsPerF32 : ℝ) ≠ 0 := by
    rw [unitsPerF32_cast]
    positivity
  have hvalue : (f64Value (f64OfF32 w) : ℝ) = f32Value w := by
    rw [hval, f32Value_cast, hmag, pow_add, ← unitsPerF32_eq, unitsPerOne_eq_mul]
    push_cast
    field_simp
  exact_mod_cast hvalue

/-- The widening of an infinity or a NaN (R11). -/
theorem f64OfF32_of_top {w : F32} (hw : f32Finite w = false) :
    fsign (f64OfF32 w) = w.getLsbD 31 ∧ fbits (f64OfF32 w) = 2047 * 2 ^ 52 + w.toNat % 2 ^ 23 * 2 ^ 29 := by
  have htop : w.toNat / 2 ^ 23 % 2 ^ 8 = 255 := by simpa [f32Finite] using hw
  refine sign_and_bits_of_toNat ?_ ((toNat_f64OfF32_of_top htop).trans (Nat.add_assoc _ _ _))
  omega

/-- `f32` gives a NaN for a NaN (R11). -/
theorem f32OfF64_of_nan {v : F64} (hv : fisNaN v = true) : 255 * 2 ^ 23 < f32bits (f32OfF64 v) := by
  have hlow : ∀ u : F32, f32bits u = (u.setWidth 31).toNat := fun u => by simp [f32bits]
  have hor : ∀ u c : F32, f32bits (u ||| c) = f32bits u ||| f32bits c := fun u c => by
    rw [hlow, hlow, hlow, BitVec.setWidth_or, BitVec.toNat_or]
  simp only [f32OfF64, hv, if_true]
  generalize Config.nanWord32 v = u
  split
  · rw [hor]
    exact lt_of_lt_of_le (by decide) Nat.right_le_or
  · next hfrac =>
    have hge : 255 * 2 ^ 23 ≤ f32bits (u ||| 0x7F800000#32) := by
      rw [hor]
      exact le_trans (by decide) Nat.right_le_or
    have hmod : f32bits (u ||| 0x7F800000#32) % 2 ^ 23 ≠ 0 := by
      rw [hor, Nat.or_mod_two_pow, show f32bits 0x7F800000#32 % 2 ^ 23 = 0 by decide, Nat.or_zero]
      unfold f32bits
      omega
    omega

theorem f32OfF64_of_inf {v : F64} (hv : fisInf v = true) :
    (f32OfF64 v).getLsbD 31 = fsign v ∧ f32bits (f32OfF64 v) = 255 * 2 ^ 23 := by
  have hnan : fisNaN v = false := by
    rw [← Bool.not_eq_true, fisNaN_iff, (fisInf_iff v).1 hv]
    omega
  have heq : f32OfF64 v = BitVec.ofNat 32 ((if fsign v then 2 ^ 31 else 0) + 255 * 2 ^ 23) := by
    simp [f32OfF64, hnan, hv]
  rw [heq]
  exact sign_and_f32bits_of_ofNat _ (by norm_num)

theorem f32Finite_eq_false_of_le {w : F32} (h : 255 * 2 ^ 23 ≤ f32bits w) : f32Finite w = false := by
  rw [← Bool.not_eq_true, f32Finite_iff]
  omega

end

end Sys2Proof.Machine
end

section
/-!
SUPPORT. What frac (R13), clamp (R14), the cutoff (R135), the frequency controller (R130) and the oscillators (R114 to
R124) make of ranges and of values that are not finite.
-/

namespace Sys2Proof.Machine

section
variable {a b x y : F64}

/-! ### Small values -/

@[simp] theorem ffinite_fzero : ffinite fzero = true := by decide

@[simp] theorem f64Value_fzero : f64Value fzero = 0 := by
  rw [f64Value_eq_zero_iff, fscaled, fmag_eq, show fbits fzero = 0 by decide, magUnits_zero]
  simp

/-- `real(n)` is exact for an integer with at most 53 significant bits (R11). -/
theorem freal_exact {k m : Nat} (hm : m ≤ 2 ^ 53) (hk : k ≤ 970) :
    ffinite (freal (m * 2 ^ k)) = true ∧ f64Value (freal (m * 2 ^ k)) = (m * 2 ^ k : Nat) := by
  have hU := unitsPerOne_cast_pos.ne'
  obtain ⟨hfin, hval⟩ := f64OfRatio_exact false (a := m) (k := k + 1074) hm (by omega)
  have heq : freal (m * 2 ^ k) = f64OfRatio false (m * 2 ^ (k + 1074)) 1 := by
    rw [freal, pow_add, ← Nat.mul_assoc, ← unitsPerOne_eq]
  rw [← heq, pow_add, ← Nat.mul_assoc, ← unitsPerOne_eq, signFactor_false, one_mul, Nat.cast_mul _ unitsPerOne,
    mul_div_cancel_right₀ _ hU] at hval
  exact ⟨heq ▸ hfin, by exact_mod_cast hval⟩

theorem freal_small {n : Nat} (hn : n ≤ 2 ^ 53) : ffinite (freal n) = true ∧ f64Value (freal n) = n := by
  simpa using freal_exact (k := 0) hn (by norm_num)

theorem roundsTo_freal (n : Nat) : RoundsTo (n : ℝ) (freal n) := by
  simpa [flit, freal] using roundsTo_flit n one_pos

/-- A 64-bit integer is rounded to a finite value, and one that is not 0 to at least 1. -/
theorem freal_word (n : Word) :
    ffinite (freal n.toNat) = true ∧ 0 ≤ f64Value (freal n.toNat) ∧ f64Value (freal n.toNat) ≤ 2 ^ 64 ∧
      (1 ≤ n.toNat → 1 ≤ f64Value (freal n.toNat)) := by
  obtain ⟨hfin, hval⟩ := freal_exact (m := 1) (k := 64) (by norm_num) (by norm_num)
  obtain ⟨hone, hval1⟩ := freal_small (n := 1) (by norm_num)
  have hhi : (n.toNat : ℝ) ≤ (f64Value (freal (1 * 2 ^ 64)) : ℚ) := by
    rw [hval]
    exact_mod_cast (by omega)
  obtain ⟨h, hlo, hle⟩ := (roundsTo_freal n.toNat).mem_interval ffinite_fzero hfin (by simp) hhi
  refine ⟨h, by simpa using hlo, by rw [hval] at hle; exact_mod_cast hle, fun hn => ?_⟩
  have := ((roundsTo_freal n.toNat).mem_interval hone hfin (by rw [hval1]; exact_mod_cast hn) hhi).2.1
  rwa [hval1, Nat.cast_one] at this

/-- Halving a value of biased exponent at least 2 is exact. -/
theorem exists_half (hx : ffinite x = true) (he : 2 ≤ f64Exp x) :
    ∃ h, ffinite h = true ∧ f64Value h = f64Value x / 2 := by
  obtain ⟨k, r, hb, hr, hk⟩ := exists_significand 52 (fbits x)
  rw [f64Exp_eq] at he
  rw [ffinite_iff] at hx
  obtain ⟨k, rfl⟩ : ∃ j, k = j + 1 := ⟨k - 1, by omega⟩
  obtain ⟨hfin, hval⟩ := f64OfRatio_exact (fsign x) (a := r) (k := k) (by omega) (by omega)
  refine ⟨_, hfin, ?_⟩
  have hmag : magUnits 52 (fbits x) = r * 2 ^ k * 2 := by
    rw [hb, magUnits_eq hr.le (.inr (by omega)), pow_succ, Nat.mul_assoc]
  have : (f64Value (f64OfRatio (fsign x) (r * 2 ^ k) 1) : ℝ) = f64Value x / 2 := by
    rw [hval, f64Value_cast x, hmag]
    push_cast
    ring
  exact_mod_cast this

/-- A number that binary64 holds is rounded to itself. -/
theorem RoundsTo.eq_value {v : ℝ} {r h : F64} (hr : RoundsTo v r) (hh : ffinite h = true) (hv : v = f64Value h) :
    ffinite r = true ∧ f64Value r = f64Value h := by
  obtain ⟨hfin, hle, hge⟩ := hr.mem_interval hh hh hv.ge hv.le
  exact ⟨hfin, le_antisymm hge hle⟩

/-! ### frac and clamp -/

/-- frac of a finite value lies in the closed interval [0, 1] (R13). -/
theorem ffrac_mem_unit (hx : ffinite x = true) :
    ffinite (ffrac x) = true ∧ 0 ≤ f64Value (ffrac x) ∧ f64Value (ffrac x) ≤ 1 := by
  obtain ⟨hfin, hval, -⟩ := ffloor_exact hx
  obtain ⟨hone, hval1⟩ := freal_small (n := 1) (by norm_num)
  have hround := roundsTo_fsub hx hfin
  rw [hval, Int.self_sub_floor] at hround
  have h := hround.mem_interval ffinite_fzero hone (by rw [f64Value_fzero]; exact_mod_cast Int.fract_nonneg _)
    (by rw [hval1]; exact_mod_cast (Int.fract_lt_one _).le)
  rwa [f64Value_fzero, hval1, Nat.cast_one] at h

/-- frac of a value that is not finite is a NaN (R8, R13). -/
theorem fisNaN_ffrac_of_not_finite (hx : ffinite x = false) : fisNaN (ffrac x) = true := by
  by_cases hnan : fisNaN x = true
  · exact fisNaN_fadd (.inl hnan)
  · rw [Bool.not_eq_true] at hnan
    have hinf : fisInf x = true := ((ffinite_eq_false_iff x).1 hx).resolve_left (by simp [hnan])
    have hinf' : fisInf (fneg x) = true := by rwa [fisInf_iff, fbits_fneg, ← fisInf_iff]
    simp [ffrac, ffloor, fsub, fadd, hnan, hinf, hinf']

theorem forder_of_inf (hx : fisInf x = true) : forder x = if fsign x then -(2047 * 2 ^ 52) else 2047 * 2 ^ 52 := by
  have hb : x.toNat % 2 ^ 63 = 2047 * 2 ^ 52 := (fisInf_iff x).1 hx
  rw [forder, hb]
  rfl

theorem abs_forder_lt (hx : ffinite x = true) : |forder x| < 2047 * 2 ^ 52 := by
  have hb : x.toNat % 2 ^ 63 < 2047 * 2 ^ 52 := (ffinite_iff x).1 hx
  rw [abs_lt, forder]
  split <;> omega

/-- clamp with finite bounds takes every value that is no NaN, an infinity too, into the bounds (R14). -/
theorem fclamp_mem {lo hi : F64} (hlo : ffinite lo = true) (hhi : ffinite hi = true) (hle : f64Value lo ≤ f64Value hi)
    (hx : fisNaN x = false) :
    ffinite (fclamp lo hi x) = true ∧ f64Value lo ≤ f64Value (fclamp lo hi x) ∧
      f64Value (fclamp lo hi x) ≤ f64Value hi := by
  unfold fclamp
  split
  · exact ⟨hlo, le_rfl, hle⟩
  · next hnlo =>
    split
    · exact ⟨hhi, hle, le_rfl⟩
    · next hnhi =>
      cases hfin : ffinite x
      · have hinf : fisInf x = true := ((ffinite_eq_false_iff x).1 hfin).resolve_left (by simp [hx])
        have horder := forder_of_inf hinf
        have hlo' := abs_lt.1 (abs_forder_lt hlo)
        have hhi' := abs_lt.1 (abs_forder_lt hhi)
        simp only [flt, hx, fisNaN_of_finite hlo, fisNaN_of_finite hhi, Bool.not_false, Bool.and_self, Bool.true_and,
          decide_eq_true_eq] at hnlo hnhi
        split at horder <;> omega
      · rw [flt_iff hfin hlo] at hnlo
        rw [flt_iff hhi hfin] at hnhi
        exact ⟨rfl, not_lt.1 hnlo, not_lt.1 hnhi⟩

/-! ### The cutoff (R135) -/

/-- A sum of a finite value and one that is no NaN is no NaN. -/
theorem fisNaN_fadd_of_finite (ha : ffinite a = true) (hb : fisNaN b = false) : fisNaN (fadd a b) = false := by
  simp only [fadd, fisNaN_of_finite ha, fisInf_of_finite ha, hb, Bool.or_self, Bool.false_eq_true, if_false]
  split
  · exact hb
  · split <;> exact fisNaN_f64OfRatio _ _ _

theorem State.ffinite_fraction (s : State) (hn : 1 ≤ s.numSamples.toNat) : ffinite s.fraction = true := by
  obtain ⟨hi, hi0, hile, -⟩ := freal_word s.i
  obtain ⟨hN, -, -, hN1⟩ := freal_word s.numSamples
  have hN1 := hN1 hn
  obtain ⟨hfin, hval⟩ := freal_exact (m := 1) (k := 64) (by norm_num) (by norm_num)
  have hround := roundsTo_fdiv hi hN (by linarith)
  refine (hround.mem_interval ffinite_fzero hfin ?_ ?_).1
  · rw [f64Value_fzero]
    exact_mod_cast div_nonneg hi0 (by linarith)
  · rw [hval]
    exact_mod_cast (div_le_self hi0 hN1).trans (by exact_mod_cast hile)

/-- The cutoff of R135 before the factor PI lies in [0, 1/2]. -/
theorem clamped_cutoff_ratio_mem {rate x : F64} (hrate : ffinite rate = true) (hpos : 0 < f64Value rate)
    (he : 2 ≤ f64Exp rate) (hx : fisNaN x = false) :
    let q := fdiv (fclamp fzero (fdiv rate (freal 2)) x) rate
    ffinite q = true ∧ 0 ≤ f64Value q ∧ f64Value q ≤ 1 / 2 := by
  intro q
  obtain ⟨hone, hval1⟩ := freal_small (n := 1) (by norm_num)
  obtain ⟨htwo, hval2⟩ := freal_small (n := 2) (by norm_num)
  obtain ⟨h, hhfin, hhval⟩ := exists_half hrate he
  obtain ⟨g, hgfin, hgval⟩ := exists_half hone (by decide +kernel)
  obtain ⟨hhalf, hhalfval⟩ := (roundsTo_fdiv hrate htwo (by rw [hval2]; norm_num)).eq_value hhfin
    (by rw [hval2, hhval]; norm_num)
  rw [hhval] at hhalfval
  obtain ⟨hc, hc0, hcle⟩ := fclamp_mem ffinite_fzero hhalf (by rw [hhalfval, f64Value_fzero]; linarith) hx
  rw [f64Value_fzero] at hc0
  rw [hhalfval] at hcle
  have hround := roundsTo_fdiv hc hrate hpos.ne'
  have hmem := hround.mem_interval ffinite_fzero hgfin
    (by rw [f64Value_fzero]; exact_mod_cast div_nonneg hc0 hpos.le)
    (by
      rw [hgval, hval1]
      have : f64Value (fclamp fzero (fdiv rate (freal 2)) x) / f64Value rate ≤ (1 : Nat) / 2 := by
        rw [div_le_iff₀ hpos]
        push_cast
        linarith
      exact_mod_cast this)
  rwa [f64Value_fzero, hgval, hval1, Nat.cast_one] at hmem

theorem fPI_facts : ffinite fPI = true ∧ 2 ≤ f64Exp fPI ∧ 0 ≤ f64Value fPI := by
  rw [f64Value_nonneg_iff]
  decide +kernel

/-- A ratio of [0, 1/2] times PI lies in [0, PI/2] (R135). -/
theorem fmul_fPI_mem (hq : ffinite x = true) (h0 : 0 ≤ f64Value x) (hle : f64Value x ≤ 1 / 2) :
    ffinite (fmul x fPI) = true ∧ 0 ≤ f64Value (fmul x fPI) ∧ f64Value (fmul x fPI) ≤ f64Value fPI / 2 := by
  obtain ⟨hpi, hexp, hpi0⟩ := fPI_facts
  obtain ⟨h, hfin, hval⟩ := exists_half hpi hexp
  have hmem := (roundsTo_fmul hq hpi).mem_interval ffinite_fzero hfin
    (by rw [f64Value_fzero]; exact_mod_cast mul_nonneg h0 hpi0)
    (by
      rw [hval]
      have : f64Value x * f64Value fPI ≤ f64Value fPI / 2 := by nlinarith
      exact_mod_cast this)
  rwa [f64Value_fzero, hval] at hmem

/-! ### Values that are not finite (R130, R165) -/

theorem ffinite_fadd_of_right (hb : ffinite b = false) : ffinite (fadd a b) = false := by
  rw [ffinite_eq_false_iff] at hb ⊢
  unfold fadd
  split
  · exact .inl (fisNaN_fnan _ _ _)
  · next hnan =>
    have hinf : fisInf b = true := hb.resolve_left fun h => hnan (by simp [h])
    rw [hinf]
    split
    · next ha =>
      split
      · exact .inl (fisNaN_fnan _ _ _)
      · exact .inr ha
    · exact .inr hinf

theorem ffinite_fdiv_of_left (ha : ffinite a = false) : ffinite (fdiv a b) = false := by
  rw [ffinite_eq_false_iff] at ha ⊢
  unfold fdiv
  simp only
  split
  · exact .inl (fisNaN_fnan _ _ _)
  · next hnan =>
    rw [ha.resolve_left fun h => hnan (by simp [h]), if_pos rfl]
    split
    · exact .inl (fisNaN_fnan _ _ _)
    · exact .inr ((fisInf_iff _).2 (fbits_finfOf _))

theorem fisNaN_fsub (h : fisNaN a = true ∨ fisNaN b = true) : fisNaN (fsub a b) = true :=
  fisNaN_fadd (h.imp_right fun hb => by rwa [fisNaN_fneg])

theorem ffinite_of_nan (h : fisNaN x = true) : ffinite x = false := (ffinite_eq_false_iff x).2 (.inl h)

/-- FREQ answers a NaN phase for a frequency that is not finite, and keeps a NaN phase one (R130). -/
theorem fisNaN_advanced_phase {phase f rate : F64} (h : ffinite f = false ∨ fisNaN phase = true) :
    fisNaN (ffrac (fadd phase (fdiv f rate))) = true := by
  refine fisNaN_ffrac_of_not_finite ?_
  rcases h with h | h
  · exact ffinite_fadd_of_right (ffinite_fdiv_of_left h)
  · exact ffinite_fadd_of_left _ (ffinite_of_nan h)

theorem fisNaN_harmonicPhase {phase : F64} (h : fisNaN phase = true) (k : Nat) :
    fisNaN (harmonicPhase phase k) = true := fisNaN_ffrac_of_not_finite (ffinite_of_nan (fisNaN_fmul (.inl h)))

theorem fisNaN_shapeTriangle (h : fisNaN x = true) : fisNaN (shapeTriangle x) = true := by
  simp [shapeTriangle, comparisons_of_nan (.inl h), fisNaN_fsub (.inl (fisNaN_fmul (.inr h)))]

theorem fisNaN_shapeSawtooth (h : fisNaN x = true) : fisNaN (shapeSawtooth x) = true := by
  simp [shapeSawtooth, comparisons_of_nan (.inl h), fisNaN_fsub (.inl (fisNaN_fmul (.inr h)))]

theorem fisNaN_breakerPhase (h : fisNaN x = true) : fisNaN (breakerPhase x) = true := by
  have hsum : fisNaN (fadd x fSqrt075) = true := fisNaN_fadd (.inl h)
  simp [breakerPhase, comparisons_of_nan (.inr hsum), hsum]

theorem fisNaN_shapeBreaker (h : fisNaN x = true) : fisNaN (shapeBreaker x) = true := by
  have hsq : fisNaN (fmul (breakerPhase x) (breakerPhase x)) = true := fisNaN_fmul (.inl (fisNaN_breakerPhase h))
  have habs : fisNaN (fabs (fsub (freal 1) (fmul (freal 2) (fmul (breakerPhase x) (breakerPhase x))))) = true := by
    rw [fisNaN_fabs]
    exact fisNaN_fsub (.inr (fisNaN_fmul (.inr hsq)))
  exact fisNaN_fadd (.inr (fisNaN_fmul (.inr habs)))

/-- The square's comparison is false of a NaN phase (R120 with R8). -/
theorem shapeSquare_of_nan (d : F64) (h : fisNaN x = true) : shapeSquare d x = fneg (freal 1) := by
  simp [shapeSquare, comparisons_of_nan (.inl h)]

/-! ### The harmonic loop (R114) -/

/-- The loop is the recurrence of R114: from the sum and the amplitude of harmonic `h`, `n` terms on. -/
theorem oscSumFrom_eq_of_recurrence {shape : F64 → F64} {phase falloff : F64} {acc amp : Nat → F64}
    (hacc : ∀ h, acc (h + 1) = fadd (acc h) (fmul (amp h) (shape (harmonicPhase phase h))))
    (hamp : ∀ h, amp (h + 1) = fmul (amp h) falloff) (n h : Nat) :
    oscSumFrom shape phase falloff n h (acc h) (amp h) = acc (h + n) := by
  induction n generalizing h with
  | zero => rfl
  | succ n ih => rw [oscSumFrom, ← hacc, ← hamp, ih, Nat.add_right_comm, Nat.add_assoc]

/-- The sum is a NaN when the loop starts from a NaN, or has a term and every shape is a NaN. -/
theorem fisNaN_oscSumFrom {shape : F64 → F64} {phase falloff : F64}
    (hshape : ∀ h, fisNaN (shape (harmonicPhase phase h)) = true) (n h : Nat) (acc amp : F64)
    (hstart : fisNaN acc = true ∨ n ≠ 0) : fisNaN (oscSumFrom shape phase falloff n h acc amp) = true := by
  induction n generalizing h acc amp with
  | zero => exact hstart.resolve_right (fun h => h rfl)
  | succ n ih => exact ih _ _ _ (.inl (fisNaN_fadd (.inr (fisNaN_fmul (.inr (hshape h))))))

theorem State.fisNaN_oscSum {shape : F64 → F64} (s : State) (hphase : fisNaN s.phase = true)
    (hshape : ∀ p, fisNaN p = true → fisNaN (shape p) = true) : fisNaN (s.oscSum shape) = true :=
  fisNaN_oscSumFrom (fun h => hshape _ (fisNaN_harmonicPhase hphase h)) _ _ _ _ (.inr (Nat.succ_ne_zero _))

end

end Sys2Proof.Machine
end

section
/-!
PROOFS. The statements on the arithmetic of R8 to R15, on the cutoff of R135 and on values that are not finite.
-/

namespace Sys2Proof.Proofs.Scope
open Sys2Proof.Machine

/-- Settles O55: each operation ends in one `f64OfRatio` of the exact result. -/
theorem basicArithmeticIsCorrectlyRounded : Obligations.BasicArithmeticIsCorrectlyRounded :=
  ⟨fun _ _ ha hb => ⟨roundsTo_fadd ha hb, roundsTo_fsub ha hb, roundsTo_fmul ha hb, roundsTo_fdiv ha hb⟩,
    fun n _ hd => roundsTo_flit n hd⟩

/-- Settles O56: the rounded half-unit root compares with every midpoint as the exact root does. -/
theorem squareRootIsCorrectlyRounded : Obligations.SquareRootIsCorrectlyRounded := fun _ hx hv => roundsTo_fsqrt hx hv

/-- Settles O57: the integer part of a finite value is one that binary64 holds. -/
theorem floorAndCeilAreExact : Obligations.FloorAndCeilAreExact := fun _ hx =>
  have ⟨hffin, hfval, hfsign⟩ := ffloor_exact hx
  ⟨hffin, hfval, hfsign, fceil_exact hx⟩

/-- Settles O58: the two formats' roundings are one argument, and the widened significand fits binary64. -/
theorem conversionsToAndFromBinary32 : Obligations.ConversionsToAndFromBinary32 := by
  refine ⟨fun v hv => roundsTo32_f32OfF64 hv, fun w hw => f64OfF32_exact hw, fun w hw => ?_, fun v hv => ?_,
    fun v hv => ?_⟩
  · obtain ⟨hs, hb⟩ := f64OfF32_of_top hw
    rw [f64Exp_eq, f64Frac_eq, hb]
    exact ⟨hs, by omega, by omega⟩
  · have hbits := f32OfF64_of_nan hv
    obtain ⟨-, hb⟩ := f64OfF32_of_top (f32Finite_eq_false_of_le hbits.le)
    rw [fisNaN_iff, hb]
    unfold f32bits at hbits
    omega
  · obtain ⟨hs32, hb32⟩ := f32OfF64_of_inf hv
    obtain ⟨hs, hb⟩ := f64OfF32_of_top (f32Finite_eq_false_of_le hb32.ge)
    refine f64_ext (hs.trans hs32) ?_
    rw [hb, (fisInf_iff v).1 hv]
    unfold f32bits at hb32
    omega

/-- Settles O59: `forder` orders the magnitudes as `magUnits` does, which is strictly monotone. -/
theorem comparisonsAreThoseOfTheReals : Obligations.ComparisonsAreThoseOfTheReals :=
  ⟨fun _ _ ha hb => ⟨flt_iff ha hb, fle_iff ha hb, feq_iff ha hb⟩, fun _ _ h => comparisons_of_nan h⟩

/-- Settles O24: the fractional part lies in [0, 1), and rounding keeps it between the values 0 and 1. -/
theorem fracLiesInTheClosedUnitInterval : Obligations.FracLiesInTheClosedUnitInterval :=
  ⟨fun _ => rfl, fun _ hx => ffrac_mem_unit hx, by decide +kernel, by decide +kernel⟩

/-- Settles O27: the clamp holds the ratio to the sample rate in [0, 1/2], whatever the sweep overflows to. -/
theorem cutoffFrequencyLiesInItsRange : Obligations.CutoffFrequencyLiesInItsRange := by
  intro s b w hrate hpos he hn hb hw
  have hsweep : fisNaN (fmul s.fraction w) = false := by
    rw [fmul_of_finite (s.ffinite_fraction hn) hw]
    exact fisNaN_f64OfRatio _ _ _
  obtain ⟨hq, hq0, hqle⟩ := clamped_cutoff_ratio_mem hrate hpos he (fisNaN_fadd_of_finite hb hsweep)
  exact fmul_fPI_mem hq hq0 hqle

/-- Settles O60: frac of a value that is not finite is a NaN, which every sum and product keeps and every comparison
answers false. -/
theorem nonFiniteFrequencyReachesTheSamples : Obligations.NonFiniteFrequencyReachesTheSamples := by
  refine ⟨fun s => ⟨_, rfl, fun h => fisNaN_advanced_phase h⟩, fun s hphase => ⟨fun i hi => ?_, ?_⟩⟩
  · simp only [List.mem_cons, List.not_mem_nil, or_false] at hi
    rcases hi with rfl | rfl | rfl
    · exact ⟨_, rfl, s.fisNaN_oscSum hphase fun _ => fisNaN_shapeTriangle⟩
    · exact ⟨_, rfl, s.fisNaN_oscSum hphase fun _ => fisNaN_shapeSawtooth⟩
    · exact ⟨_, rfl, s.fisNaN_oscSum hphase fun _ => fisNaN_shapeBreaker⟩
  · intro acc amp hacc0 hamp0 hacc hamp
    have hsum := oscSumFrom_eq_of_recurrence (shape := shapeSquare s.duty) (phase := s.phase) (acc := acc)
      (fun h => by rw [shapeSquare_of_nan _ (fisNaN_harmonicPhase hphase h), hacc]) hamp (s.p[16].toNat + 1) 0
    rw [hacc0, hamp0, Nat.zero_add] at hsum
    rw [← hsum]
    rfl

end Sys2Proof.Proofs.Scope
end

section
/-!
SUPPORT. Everything one step can do, as two relations: `EngineStep` for an engine turn (R86 to R154) and `BusStep`
for a host turn (R50 to R53, R80 to R84). `step_next` ties both to the model's `step`; the facts about every step are
proved by their cases.
-/

namespace Sys2Proof.Machine

/-! ### An engine turn -/

/-- What an engine turn can do, a rule per stage code of R68. TREMOLO, LPF, HPF, ENVELOPE and COMPRESS share one: each
writes the sample and the memory of the filters, and goes to the next code. -/
inductive EngineStep (s : State) : State → Prop
  | idle (hst : s.stage.toNat = 0) : EngineStep s s
  | rejected (hst : s.stage.toNat = 1) {k : Nat} (hk : s.validationError = some k) :
      EngineStep s (s.raise .invalidParameter k)
  | accepted (hst : s.stage.toNat = 1) (hv : s.validationError = none) : EngineStep s (s.goto stNormalize)
  | normalized (hst : s.stage.toNat = 2) :
      EngineStep s
        { s with
          numSamples := s.count, duration := s.renderDuration, repeatFreqEff := s.flooredRepeat, stage := stInit }
  | cleared (hst : s.stage.toNat = 3) (a : F64) :
      EngineStep s
        { s with
          phase := fzero, pink := Vector.replicate 7 fzero, brown := fzero, draws := 0
          lpfY := fzero, hpfX := fzero, hpfY := fzero, s := fzero, f := fzero, a0 := a
          maxSample := fzero, i := 0, stage := firstStage s.inst.phaseOrder }
  | sourced (hst : s.stage.toNat = 4) {u : State} (hu : s.sourced = some u) :
      EngineStep s (u.goto (afterSource s.inst.phaseOrder))
  | advanced (hst : s.stage.toNat = 5) (f x : F64) :
      EngineStep s { s with f := f, phase := ffrac x, stage := afterFreq s.inst.phaseOrder }
  | shaped (hlo : 6 ≤ s.stage.toNat) (hhi : s.stage.toNat ≤ 10) {st : BitVec 4} (hst : st.toNat = s.stage.toNat + 1)
      (x y u v : F64) : EngineStep s { s with s := x, lpfY := y, hpfX := u, hpfY := v, stage := st }
  | stored (hst : s.stage.toNat = 11) (hi : s.i.toNat < s.inst.maxSamples) :
      EngineStep s s.storedPeak.nextAfterStorePeak
  | scaled (hst : s.stage.toNat = 12) (hi : s.i.toNat < s.inst.maxSamples) :
      EngineStep s { s with sb := storeEntry s.sb s.i.toNat s.scaledEntry : State }.nextAfterScale

section
variable {s t : State}

theorem engineStep_of_execValidate (hst : s.stage.toNat = 1) (h : execValidate s = .next t) : EngineStep s t := by
  unfold execValidate at h
  split at h <;> cases h
  case h_1 k hk => exact .rejected hst hk
  case h_2 hv => exact .accepted hst hv

theorem engineStep_of_execSource (hst : s.stage.toNat = 4) (h : execSource s = .next t) : EngineStep s t := by
  unfold execSource at h
  split at h <;> cases h
  next u hu => exact .sourced hst hu

/-- The stage a code names does what `EngineStep` says. -/
theorem engineStep_of_exec {i : Instr} (hd : decodeStage s.stage = .ok i) (h : exec i s = .next t) :
    EngineStep s t := by
  unfold decodeStage at hd
  split at hd <;> cases hd
  case h_1 hst =>
    cases h
    exact .idle hst
  case h_2 hst => exact engineStep_of_execValidate hst h
  case h_3 hst =>
    cases h
    exact .normalized hst
  case h_4 hst =>
    cases h
    exact .cleared hst _
  case h_5 hst => exact engineStep_of_execSource hst h
  case h_6 hst =>
    cases h
    exact .advanced hst _ _
  case h_7 hst | h_8 hst | h_9 hst | h_10 hst | h_11 hst =>
    cases h
    exact .shaped (by omega) (by omega) (by rw [hst]; rfl) _ _ _ _
  case h_12 hst =>
    obtain ⟨hi, rfl⟩ := atEntry_next h
    exact .stored hst hi
  case h_13 hst =>
    obtain ⟨hi, rfl⟩ := atEntry_next h
    exact .scaled hst hi

/-- No engine turn writes a parameter register or a sticky flag, or changes what the block was built with (R6, R20,
R23). -/
theorem EngineStep.frame (h : EngineStep s t) :
    t.inst = s.inst ∧ t.p = s.p ∧ t.accessErr = s.accessErr ∧ t.ignored = s.ignored := by
  cases h with
  | sourced _ hu =>
    obtain ⟨-, x, d, b, k, rfl⟩ := sourced_cases hu
    exact ⟨rfl, rfl, rfl, rfl⟩
  | stored _ _ =>
    rcases nextAfterStorePeak_cases s.storedPeak with ⟨-, heq⟩ | ⟨-, heq⟩ <;> rw [heq] <;> exact ⟨rfl, rfl, rfl, rfl⟩
  | scaled _ _ =>
    rcases nextAfterScale_cases { s with sb := storeEntry s.sb s.i.toNat s.scaledEntry } with ⟨-, heq⟩ | ⟨-, heq⟩ <;>
      rw [heq] <;> exact ⟨rfl, rfl, rfl, rfl⟩
  | _ => exact ⟨rfl, rfl, rfl, rfl⟩

end

/-! ### A host turn -/

/-- What a transaction can do, by its descriptor, its offset and its data lanes (R50, R51, R72). -/
inductive BusStep (s : State) (desc : BitVec 2) (addr : Nat) (data : Word) : State → Prop
  | read (w : Word) : BusStep s desc addr data (s.answer w)
  | illegalRead : BusStep s desc addr data (s.flagAccessErr.answer 0)
  | illegalWrite : BusStep s desc addr data s.flagAccessErr
  | ignored (hb : s.busy = true) : BusStep s desc addr data s.flagIgnored
  | parameter (hb : s.busy = false) (k : Nat) (v : Word) : BusStep s desc addr data (s.setParam k v)
  | command (hd : desc = 0b11) (ha : addr = 0x008) : BusStep s desc addr data (s.issueCommand data)

section
variable {s t : State} {d : BitVec 2} {a : Nat} {v : Word}

theorem busStep_memRead (s : State) (d : BitVec 2) (a : Nat) (v : Word) (n : Nat) :
    BusStep s d a v (s.memRead a n) := by
  rcases memRead_cases s a n with ⟨-, heq⟩ | ⟨-, heq⟩ <;> rw [heq]
  · exact .read _
  · exact .illegalRead

theorem busStep_memWrite (s : State) (hd : d = 0b11) (a : Nat) (v : Word) : BusStep s d a v (s.memWrite a 8 v) := by
  rcases memWrite_cases s a 8 v with ⟨-, heq⟩ | ⟨-, ha, heq⟩ | ⟨-, -, hb, heq⟩ | ⟨-, -, hb, heq⟩ <;> rw [heq]
  · exact .illegalWrite
  · exact .command hd ha
  · exact .ignored hb
  · exact .parameter hb _ _

theorem desc_eq_of_bits : ∀ d : BitVec 2, d.getLsbD 1 = true → d.getLsbD 0 = true → d = 0b11 := by decide

/-- A transaction does what `BusStep` says. -/
theorem busStep_of_exec (h : exec (decodeBus d a v) s = .next t) : BusStep s d a v t := by
  unfold decodeBus at h
  split at h <;> obtain ⟨-, rfl⟩ := inAperture_next h
  · exact busStep_memRead s d a v 4
  · rcases memWrite_cases s a 4 ((v.setWidth 32).setWidth 64) with ⟨-, heq⟩ | ⟨hl, -⟩ | ⟨hl, -⟩ | ⟨hl, -⟩
    · rw [heq]
      exact .illegalWrite
    all_goals exact absurd hl (by simp [legalWrite_four])
  · exact busStep_memRead s d a v 8
  · next h1 h0 => exact busStep_memWrite s (desc_eq_of_bits d h1 h0) a v

end

/-! ### One step -/

section
variable {s t : State}

/-- Everything a step that answers a next state can do: it is a turn of the engine or of the host (R56, R98). -/
theorem step_next (h : step s = .next t) :
    (s.engineTurn ∧ EngineStep s.takeTurn t) ∨
      (∃ r, s.agenda.head? = some (.host r) ∧ s.inst.base ≤ r.addr ∧
        BusStep s.takeTurn r.desc (r.addr - s.inst.base) r.data t) := by
  rcases step_cases h with ⟨hturn, i, hd, hx⟩ | ⟨r, hhead, hbase, hx⟩
  · exact .inl ⟨hturn, engineStep_of_exec hd hx⟩
  · exact .inr ⟨r, hhead, hbase, busStep_of_exec hx⟩

theorem not_engineTurn_of_host {r : BusRequest} (h : s.agenda.head? = some (.host r)) : ¬ s.engineTurn := by
  obtain ⟨l, hl⟩ := List.head?_eq_some_iff.1 h
  exact fun hturn => hturn r l hl

/-- A transaction of R72's descriptor 0b11 at CMD's offset is the host's write of its data to CMD. -/
theorem commandTurn_of_host {r : BusRequest} (h : s.agenda.head? = some (.host r)) (hbase : s.inst.base ≤ r.addr)
    (hd : r.desc = 0b11) (ha : r.addr - s.inst.base = 0x008) : s.commandTurn r.data := by
  obtain ⟨d, a, v⟩ := r
  obtain rfl : d = 0b11 := hd
  obtain rfl : a = s.inst.base + 0x008 := by simp only at ha hbase; omega
  exact h

/-- A step that is not the host's RESET: an engine turn, or a transaction that writes no 1 to CMD. -/
theorem step_next_of_not_reset (hcmd : ¬ s.commandTurn 0x1) (h : step s = .next t) :
    EngineStep s.takeTurn t ∨
      ∃ d a v, BusStep s.takeTurn d a v t ∧ (d = 0b11 → a = 0x008 → v ≠ 0x1) := by
  rcases step_next h with ⟨-, he⟩ | ⟨r, hhead, hbase, hb⟩
  · exact .inl he
  · refine .inr ⟨_, _, _, hb, fun hd ha hv => hcmd ?_⟩
    rw [← hv]
    exact commandTurn_of_host hhead hbase hd ha

/-- While BUSY no transaction but a RESET writes a parameter register (R183). -/
theorem BusStep.p_of_busy {d : BitVec 2} {a : Nat} {v : Word} (h : BusStep s d a v t) (hb : s.busy = true)
    (hv : d = 0b11 → a = 0x008 → v ≠ 0x1) : t.p = s.p := by
  cases h with
  | parameter hb' => exact absurd hb (by simp [hb'])
  | command hd ha =>
    rcases issueCommand_cases s v with ⟨h1, -⟩ | ⟨-, -, heq⟩ | ⟨hb', -⟩ | ⟨hb', -⟩ | ⟨hb', -⟩
    · exact absurd h1 (hv hd ha)
    · rw [heq, State.flagIgnored_p]
    all_goals exact absurd hb (by simp [hb'])
  | _ => rfl

/-- No transaction but a RESET clears a sticky flag (R23). -/
theorem BusStep.sticky {d : BitVec 2} {a : Nat} {v : Word} (h : BusStep s d a v t)
    (hv : d = 0b11 → a = 0x008 → v ≠ 0x1) :
    (s.accessErr = true → t.accessErr = true) ∧ (s.ignored = true → t.ignored = true) := by
  cases h with
  | command hd ha =>
    rcases issueCommand_cases s v with ⟨h1, -⟩ | ⟨-, -, heq⟩ | ⟨-, -, heq⟩ | ⟨-, -, heq⟩ | ⟨-, -, -, -, heq⟩
    · exact absurd h1 (hv hd ha)
    · rw [heq]
      exact ⟨id, fun _ => rfl⟩
    all_goals rw [heq]; exact ⟨id, id⟩
  | illegalRead | illegalWrite => exact ⟨fun _ => rfl, id⟩
  | ignored => exact ⟨id, fun _ => rfl⟩
  | read | parameter => exact ⟨id, id⟩

end

end Sys2Proof.Machine
end

section
/-!
SUPPORT. The ranges that the invariant keeps of the values an engine turn computes: the sample count (R90, R91), the
phase (R132), the brown walk (R113) and the peak (R152).
-/

namespace Sys2Proof.Machine

section
variable {a b x y : F64}

/-! ### Order -/

/-- A value between two finite ones is finite (R8). -/
theorem ffinite_of_fle {lo hi : F64} (hlo : ffinite lo = true) (hhi : ffinite hi = true) (h1 : fle lo x = true)
    (h2 : fle x hi = true) : ffinite x = true := by
  simp only [fle, Bool.and_eq_true, Bool.not_eq_true', decide_eq_true_eq] at h1 h2
  by_contra hfin
  have hinf : fisInf x = true :=
    ((ffinite_eq_false_iff x).1 (by simpa using hfin)).resolve_left (by simp [h1.1.2])
  have horder := forder_of_inf hinf
  have := abs_lt.1 (abs_forder_lt hlo)
  have := abs_lt.1 (abs_forder_lt hhi)
  split at horder <;> omega

/-- max keeps every lower bound of its first operand (R15). -/
theorem fle_fmax_left (y : F64) (h : fle a x = true) : fle a (fmax x y) = true := by
  unfold fmax
  split
  · next hlt =>
    simp only [fle, flt, Bool.and_eq_true, Bool.not_eq_true', decide_eq_true_eq] at h hlt ⊢
    exact ⟨⟨h.1.1, hlt.1.2⟩, by omega⟩
  · exact h

/-- max is at least its second operand, unless one of the two is a NaN (R15). -/
theorem fle_fmax_right (hx : fisNaN x = false) (hy : fisNaN y = false) : fle y (fmax x y) = true := by
  unfold fmax
  split
  · simp [fle, hy]
  · next hlt =>
    simp only [flt, hx, hy, Bool.not_false, Bool.and_self, Bool.true_and, decide_eq_true_eq] at hlt
    simp only [fle, hx, hy, Bool.not_false, Bool.and_self, Bool.true_and, decide_eq_true_eq]
    omega

theorem fisNaN_of_fle (h : fle a x = true) : fisNaN x = false := by
  by_contra hnan
  rw [(comparisons_of_nan (.inr (by simpa using hnan))).2.1] at h
  cases h

theorem ffinite_one : ffinite (freal 1) = true := (freal_small (by norm_num)).1

theorem f64Value_one : f64Value (freal 1) = 1 := by
  rw [(freal_small (n := 1) (by norm_num)).2, Nat.cast_one]

/-! ### The phase and the brown walk -/

/-- frac answers a value of [0, 1] or a NaN (R132). -/
theorem ffrac_range (x : F64) :
    fisNaN (ffrac x) = true ∨ (fle fzero (ffrac x) = true ∧ fle (ffrac x) (freal 1) = true) := by
  cases hx : ffinite x
  · exact .inl (fisNaN_ffrac_of_not_finite hx)
  · obtain ⟨hfin, h0, h1⟩ := ffrac_mem_unit hx
    rw [fle_iff ffinite_fzero hfin, fle_iff hfin ffinite_one, f64Value_fzero, f64Value_one]
    exact .inr ⟨h0, h1⟩

theorem fzero_range : fle fzero fzero = true ∧ fle fzero (freal 1) = true ∧ fle (fneg (freal 1)) fzero = true := by
  rw [fle_iff ffinite_fzero ffinite_fzero, fle_iff ffinite_fzero ffinite_one,
    fle_iff (by rw [ffinite_fneg, ffinite_one]) ffinite_fzero, f64Value_fneg, f64Value_fzero, f64Value_one]
  norm_num

/-- Every draw lies in [-1, 1] (R16). -/
theorem prngStream_range (n : Nat) :
    fle (fneg (freal 1)) (prngStream n) = true ∧ fle (prngStream n) (freal 1) = true := by
  unfold prngStream
  simp only
  split
  · next h => simpa using h
  · exact ⟨fzero_range.2.2, fzero_range.2.1⟩

/-- A value of [-1, 1] is finite. -/
theorem ffinite_of_range (hlo : fle (fneg (freal 1)) x = true) (hhi : fle x (freal 1) = true) : ffinite x = true :=
  ffinite_of_fle (by rw [ffinite_fneg, ffinite_one]) ffinite_one hlo hhi

theorem fclamp_range (hx : fisNaN x = false) :
    fle (fneg (freal 1)) (fclamp (fneg (freal 1)) (freal 1) x) = true ∧
      fle (fclamp (fneg (freal 1)) (freal 1) x) (freal 1) = true := by
  have hneg : ffinite (fneg (freal 1)) = true := by rw [ffinite_fneg, ffinite_one]
  obtain ⟨hfin, hlo, hhi⟩ :=
    fclamp_mem hneg ffinite_one (by rw [f64Value_fneg, f64Value_one]; norm_num) hx
  rw [fle_iff hneg hfin, fle_iff hfin ffinite_one]
  exact ⟨hlo, hhi⟩

/-- One step of the brown walk stays in [-1, 1] (R113). -/
theorem State.srcBrownnoise_brownOk {s : State} (h : s.brownOk) : s.srcBrownnoise.brownOk := by
  obtain ⟨hlo, hhi⟩ := h
  obtain ⟨hwlo, hwhi⟩ := prngStream_range s.draws.toNat
  have hten : ffinite (flit 1 10) = true := by decide +kernel
  have hprod : fisNaN (fmul (flit 1 10) (prngStream s.draws.toNat)) = false := by
    rw [fmul_of_finite hten (ffinite_of_range hwlo hwhi)]
    exact fisNaN_f64OfRatio _ _ _
  exact fclamp_range (fisNaN_fadd_of_finite (ffinite_of_range hlo hhi) hprod)

/-- Only brown noise moves the walk. -/
theorem sourced_brown {s t : State} (h : s.sourced = some t) : t.brown = s.brown ∨ t = s.srcBrownnoise := by
  unfold State.sourced at h
  split at h <;> cases h
  case h_10 => exact .inr rfl
  all_goals exact .inl rfl

theorem sourced_brownOk {s t : State} (h : s.sourced = some t) (hb : s.brownOk) : t.brownOk := by
  rcases sourced_brown h with heq | rfl
  · unfold State.brownOk
    rwa [heq]
  · exact State.srcBrownnoise_brownOk hb

/-! ### The sample count -/

theorem fceil_of_not_finite (hx : ffinite x = false) : ffinite (fceil x) = false := by
  rw [ffinite_eq_false_iff]
  unfold fceil
  rcases (ffinite_eq_false_iff x).1 hx with h | h
  · simp [h]
  · cases hnan : fisNaN x <;> simp [h]

/-- `int` of a value that is an integer below 2^64 (R11). -/
theorem fint_toNat {n : Nat} (hx : ffinite x = true) (hval : f64Value x = n) (hn : n < 2 ^ 64) :
    (fint x).toNat = n := by
  have hU := unitsPerOne_pos
  have hscaled : fscaled x = ((n * unitsPerOne : Nat) : ℤ) := by
    have hU' : (unitsPerOne : ℚ) ≠ 0 := by exact_mod_cast hU.ne'
    rw [f64Value, div_eq_iff hU'] at hval
    exact_mod_cast hval
  have hmag : fmag x = n * unitsPerOne := by rw [← natAbs_fscaled, hscaled, Int.natAbs_natCast]
  have hsign : fsign x = true → fmag x = 0 := fun hs => by
    have hneg : fscaled x = -(fmag x : ℤ) := by rw [fscaled, if_pos hs]
    omega
  have hdiv : fmag x / unitsPerOne = n := by rw [hmag, Nat.mul_div_cancel _ hU]
  have hmod : fmag x % unitsPerOne = 0 := by rw [hmag, Nat.mul_mod_left]
  have hcond : (ffinite x && decide (fmag x % unitsPerOne = 0) && decide (fmag x / unitsPerOne < 2 ^ 64) &&
      (!fsign x || decide (fmag x = 0))) = true := by
    simp only [hx, hmod, hdiv, hn, decide_true, Bool.and_self, Bool.true_and, Bool.or_eq_true, Bool.not_eq_true',
      decide_eq_true_eq]
    exact Bool.eq_false_or_eq_true (fsign x) |>.symm.imp_right hsign
  rw [fint, if_pos hcond, hdiv, BitVec.toNat_ofNat, Nat.mod_eq_of_lt hn]

/-- The count of a set that passes R90's check is an integer between 1 and MAX_SAMPLES (R90, R91). -/
theorem State.count_range {s : State} (hlegal : s.inst.legal = true) (h : s.badCount = false) :
    1 ≤ s.count.toNat ∧ s.count.toNat ≤ s.inst.maxSamples := by
  obtain ⟨⟨⟨-, hmax⟩, -⟩, -⟩ : ((1 ≤ s.inst.maxSamples ∧ s.inst.maxSamples ≤ 2 ^ 32) ∧ s.inst.maxHarmonics ≤ 2 ^ 53) ∧
      s.inst.base % 4096 = 0 := by simpa [Config.Params.legal] using hlegal
  obtain ⟨hraw, hfits⟩ : ffinite s.rawCount = true ∧
      flt (freal s.inst.maxSamples) (fmax (freal 1) s.rawCount) = false := by simpa [State.badCount] using h
  obtain ⟨hmaxfin, hmaxval⟩ := freal_small (n := s.inst.maxSamples) (by omega)
  obtain ⟨z, hz⟩ : ∃ z : ℤ, f64Value s.rawCount = z := by
    unfold State.rawCount at hraw ⊢
    cases hfin : ffinite (fmul s.pSampleRate (fadd (fadd s.pAttack s.pSustain) s.pDecay))
    · rw [fceil_of_not_finite hfin] at hraw
      cases hraw
    · exact ⟨_, (fceil_exact hfin).2.1⟩
  have hcount : ffinite (fmax (freal 1) s.rawCount) = true ∧
      ∃ z : ℤ, f64Value (fmax (freal 1) s.rawCount) = z ∧ 1 ≤ z := by
    unfold fmax
    split
    · next hlt =>
      rw [flt_iff ffinite_one hraw, f64Value_one, hz] at hlt
      exact ⟨hraw, z, hz, by exact_mod_cast hlt.le⟩
    · exact ⟨ffinite_one, 1, by simpa using f64Value_one, le_rfl⟩
  obtain ⟨hfin, z, hval, h1⟩ := hcount
  obtain ⟨n, rfl⟩ := Int.eq_ofNat_of_zero_le (by omega : 0 ≤ z)
  rw [← Bool.not_eq_true, flt_iff hmaxfin hfin, hmaxval, not_lt] at hfits
  have hle : n ≤ s.inst.maxSamples := by
    rw [hval] at hfits
    exact_mod_cast hfits
  rw [State.count, fint_toNat hfin (by simpa using hval) (by omega)]
  exact ⟨by omega, hle⟩

/-! ### VALIDATE -/

variable {s t : State}

theorem firstIllegal_mem {l : List Nat} {k : Nat} (h : s.firstIllegal l = some k) : k ∈ l := by
  induction l with
  | nil => cases h
  | cons j l ih =>
    rw [State.firstIllegal] at h
    split at h
    · exact List.mem_cons_of_mem _ (ih h)
    · cases h
      exact List.mem_cons_self

/-- The PARAM byte of a failed VALIDATE is a byte (R159). -/
theorem validationError_lt {k : Nat} (h : s.validationError = some k) : k < 2 ^ 8 := by
  unfold State.validationError at h
  split at h
  · next j hj =>
    cases h
    have := List.mem_range.1 (firstIllegal_mem hj)
    omega
  · split at h
    · cases h
      norm_num
    · split at h <;> cases h
      norm_num

theorem badCount_of_valid (h : s.validationError = none) : s.badCount = false := by
  unfold State.validationError at h
  split at h
  · cases h
  · split at h
    · cases h
    · split at h
      · cases h
      · next hc => simpa using hc

theorem firstIllegal_congr (hinst : t.inst = s.inst) (hp : t.p = s.p) (l : List Nat) :
    t.firstIllegal l = s.firstIllegal l := by
  induction l with
  | nil => rfl
  | cons k l ih =>
    simp only [State.firstIllegal, State.param, hinst, hp, ih]
    rfl

/-- What VALIDATE finds depends on the parameters alone (R86). -/
theorem validationError_congr (hinst : t.inst = s.inst) (hp : t.p = s.p) :
    t.validationError = s.validationError := by
  have hosc : t.isOscillator = s.isOscillator := by rw [State.isOscillator, State.pWaveform, hp]; rfl
  have hden : t.harmonicDenominator = s.harmonicDenominator := by
    simp only [State.harmonicDenominator, State.pHarmonics, State.pHarmonicsFalloff, hp]
  have hraw : t.rawCount = s.rawCount := by
    simp only [State.rawCount, State.pSampleRate, State.pAttack, State.pSustain, State.pDecay, hp]
  have hsum : t.badHarmonicSum = s.badHarmonicSum := by rw [State.badHarmonicSum, hosc, hden]; rfl
  have hbad : t.badCount = s.badCount := by rw [State.badCount, hraw, hinst]; rfl
  rw [State.validationError, firstIllegal_congr hinst hp, hsum, hbad]
  rfl

/-- What NORMALIZE computes depends on the parameters alone (R91, R92). -/
theorem results_congr (hp : t.p = s.p) :
    t.count = s.count ∧ t.renderDuration = s.renderDuration ∧ t.flooredRepeat = s.flooredRepeat := by
  have hcount : t.count = s.count := by
    simp only [State.count, State.rawCount, State.pSampleRate, State.pAttack, State.pSustain, State.pDecay, hp]
  have hduration : t.renderDuration = s.renderDuration := by
    simp only [State.renderDuration, hcount, State.pSampleRate, hp]
  have hrepeat : t.flooredRepeat = s.flooredRepeat := by
    simp only [State.flooredRepeat, hduration, State.pRepeatFrequency, hp]
    rfl
  exact ⟨hcount, hduration, hrepeat⟩

/-- ERR_INFO's two bytes (R25, R159). -/
theorem errInfoWord_toNat (k : ErrorKind) {param : Nat} (h : param < 2 ^ 8) :
    (errInfoWord k param).toNat = param * 2 ^ 8 + k.code := by
  have hcode : k.code < 2 ^ 8 := by cases k <;> decide
  rw [errInfoWord, ← Nat.shiftLeft_add_eq_or_of_lt hcode, Nat.shiftLeft_eq, BitVec.toNat_ofNat]
  omega

/-! ### The buffer -/

/-- Storing an entry of the buffer keeps it canonical and in its window (R42, R47). -/
theorem storeEntry_bufferOk {w : F32} (hi : s.i.toNat < s.inst.maxSamples) (h : s.bufferOk) :
    ({ s with sb := storeEntry s.sb s.i.toNat w } : State).bufferOk := by
  obtain ⟨hwf, hwindow⟩ := h
  refine ⟨storeEntry_wf hwf, fun e he => ?_⟩
  have hbytes : e ∈ s.sb ∨ entryAddr s.i.toNat ≤ e.1 ∧ e.1 ≤ entryAddr s.i.toNat + 3 := by
    unfold storeEntry at he
    rcases Memory.mem_write he with rfl | he
    · exact .inr ⟨by simp, le_rfl⟩
    rcases Memory.mem_write he with rfl | he
    · exact .inr ⟨by simp, by simp⟩
    rcases Memory.mem_write he with rfl | he
    · exact .inr ⟨by simp, by simp⟩
    rcases Memory.mem_write he with rfl | he
    · exact .inr ⟨le_rfl, by simp⟩
    exact .inl he
  rcases hbytes with he | ⟨hlo, hhi⟩
  · exact hwindow e he
  · simp only [State.aperture, apertureBytes, entryAddr] at hlo hhi ⊢
    omega

end

end Sys2Proof.Machine
end

section
/-!
SUPPORT. The machine's invariant (R23, R25, R35 to R42, R55, R88 to R96, R113, R132, R152, R184) is kept by
every `EngineStep` and every `BusStep`. The stages of the sample loop share one argument: they leave what START, VALIDATE and
NORMALIZE have fixed (`renderSetup`), so only the clauses of `LoopOk` are new.
-/

namespace Sys2Proof.Machine

section
variable {s t : State}

/-! ### Consequences of STATUS coherence -/

/-- BUSY is the stage not being IDLE (R23). -/
theorem State.Inv.busy_iff (h : s.Inv) : s.busy = true ↔ s.stage.toNat ≠ 0 := by
  rw [h.status.1, decide_eq_true_eq, ne_eq, ne_eq, ← BitVec.toNat_inj]
  rfl

theorem State.Inv.stage_of_not_busy (h : s.Inv) (hb : s.busy = false) : s.stage = stIdle := by
  have := h.status.1
  rw [hb] at this
  simpa using this

/-- A running render shows neither DONE nor ERROR (R23). -/
theorem State.Inv.flags_of_stage (h : s.Inv) (hst : s.stage.toNat ≠ 0) :
    s.busy = true ∧ s.done = false ∧ s.error = false := by
  obtain ⟨-, hdone, herror, -, -⟩ := h.status
  have hb := h.busy_iff.2 hst
  simp only [hb, Bool.true_and] at hdone herror
  exact ⟨hb, hdone, herror⟩

/-- STATUS coherence of a state in a stage of a render (R23, R68). -/
theorem statusCoherent_of_busy (hb : t.busy = true) (hdone : t.done = false) (herror : t.error = false)
    (h1 : 1 ≤ t.stage.toNat) (h12 : t.stage.toNat ≤ 12) : t.statusCoherent := by
  have hne : t.stage ≠ stIdle := fun h0 => by
    rw [h0] at h1
    cases h1
  refine ⟨?_, ?_, ?_, ?_, h12⟩
  · rw [hb, decide_eq_true hne]
  · rw [hdone, Bool.and_false]
  · rw [herror, Bool.and_false]
  · rw [herror, Bool.and_false]

/-- In IDLE the clauses on a running render say nothing. -/
theorem State.Inv.of_idle (hinst : t.inst.legal = true) (hst : t.stage = stIdle) (hb : t.busy = false)
    (hend : (t.done && t.error) = false) (hinfo : t.errInfoReservedZero) (hbuffer : t.bufferOk) (hpeak : t.peakOk)
    (hbrown : t.brownOk) (hphase : t.phaseOk) (hfailed : t.failedUnreadable) : t.Inv :=
  have hzero : t.stage.toNat = 0 := by
    rw [hst]
    rfl
  { instLegal := hinst
    status := ⟨by simp [hb, hst], by rw [hb, Bool.false_and], by rw [hb, Bool.false_and], hend, by omega⟩
    errInfo := hinfo
    parameters := fun h2 => by omega
    results := fun h3 => by omega
    index := fun h4 => by omega
    buffer := hbuffer
    peak := hpeak
    brown := hbrown
    phase := hphase
    pending := fun h1 => by omega
    cycles := fun hb' => by rw [hb] at hb'; cases hb'
    failed := hfailed }

/-! ### Host turns -/

/-- The invariant does not speak of the sticky flags nor of the model's host side (log entry 2). -/
theorem State.Inv.host_side (h : s.Inv) (a g : Bool) (l : List Turn) (w : Word) :
    ({ s with accessErr := a, ignored := g, agenda := l, hostData := w } : State).Inv :=
  { h with
    parameters := fun h2 => (validationError_congr rfl rfl).trans (h.parameters h2)
    results := fun h3 => by
      obtain ⟨hcount, hduration, hrepeat⟩ :=
        results_congr (s := s) (t := { s with accessErr := a, ignored := g, agenda := l, hostData := w }) rfl
      rw [hcount, hduration, hrepeat]
      exact h.results h3 }

/-- RESET leaves a state of the invariant, whatever it finds (R178). -/
theorem resetBlock_inv (hinst : s.inst.legal = true) (hbuffer : s.bufferOk) : s.resetBlock.Inv :=
  have ⟨h0, h1, hneg⟩ := fzero_range
  State.Inv.of_idle hinst rfl rfl rfl (by decide : 0xFF00 < 2 ^ 16) hbuffer h0 ⟨hneg, h1⟩ (.inr ⟨h0, h1⟩)
    (fun herr => by cases herr)

/-- An accepted START begins with every result 0 (R83). -/
theorem State.Inv.startRender (h : s.Inv) : s.startRender.Inv :=
  { h with
    status := statusCoherent_of_busy rfl rfl rfl (by decide : 1 ≤ 1) (by decide : 1 ≤ 12)
    errInfo := (by decide : 0xFF00 < 2 ^ 16)
    parameters := fun h2 => absurd h2 (by decide : ¬ 2 ≤ 1)
    results := fun h3 => absurd h3 (by decide : ¬ 3 ≤ 1)
    index := fun h4 => absurd h4 (by decide : ¬ 4 ≤ 1)
    peak := fzero_range.1
    pending := fun _ _ => ⟨rfl, rfl, rfl⟩
    cycles := fun _ => rfl
    failed := fun herr => by cases herr }

/-- `raise` ends the render, if there is one (R159); no sample may be readable if the set was invalid (R106). -/
theorem State.Inv.raise (h : s.Inv) (k : ErrorKind) {param : Nat} (hparam : param < 2 ^ 8)
    (hn : k = .invalidParameter → s.numSamples = 0) : (s.raise k param).Inv := by
  have hcode : k.code < 2 ^ 8 := by cases k <;> decide
  have hword := errInfoWord_toNat k hparam
  refine State.Inv.of_idle h.instLegal rfl rfl rfl ?_ h.buffer h.peak h.brown h.phase fun _ hc => hn ?_
  · rw [State.errInfoReservedZero, State.raise_errInfo, hword]
    omega
  · rw [State.raise_errInfo, hword] at hc
    cases k
    · rfl
    · simp only [ErrorKind.code] at hc
      omega

/-- Outside a render a parameter register may take any word (R24). -/
theorem State.Inv.setParam (h : s.Inv) (hb : s.busy = false) (k : Nat) (v : Word) : (s.setParam k v).Inv :=
  have ⟨_, _, _, hend, _⟩ := h.status
  State.Inv.of_idle h.instLegal (h.stage_of_not_busy hb) hb hend h.errInfo h.buffer h.peak h.brown h.phase h.failed

theorem State.Inv.issueCommand (h : s.Inv) (v : Word) : (s.issueCommand v).Inv := by
  rcases issueCommand_cases s v with ⟨-, heq⟩ | ⟨-, -, heq⟩ | ⟨-, -, heq⟩ | ⟨-, -, heq⟩ | ⟨-, -, -, -, heq⟩ <;>
    rw [heq]
  · exact resetBlock_inv h.instLegal h.buffer
  · exact h.host_side s.accessErr true s.agenda s.hostData
  · exact h
  · exact h.startRender
  · exact h.raise _ (by norm_num) (fun hk => by cases hk)

theorem BusStep.inv {d : BitVec 2} {a : Nat} {v : Word} (hstep : BusStep s d a v t) (h : s.Inv) : t.Inv := by
  cases hstep with
  | read w => exact h.host_side s.accessErr s.ignored s.agenda w
  | illegalRead => exact h.host_side true s.ignored s.agenda 0
  | illegalWrite => exact h.host_side true s.ignored s.agenda s.hostData
  | ignored => exact h.host_side s.accessErr true s.agenda s.hostData
  | parameter hb k v => exact h.setParam hb k v
  | command => exact h.issueCommand v

/-! ### The stages before the sample loop -/

theorem State.Inv.accepted (h : s.Inv) (hst : s.stage.toNat = 1) (hv : s.validationError = none) :
    (s.goto stNormalize).Inv :=
  have ⟨hb, hdone, herror⟩ := h.flags_of_stage (by omega)
  { h with
    status := statusCoherent_of_busy hb hdone herror (by decide : 1 ≤ 2) (by decide : 2 ≤ 12)
    parameters := fun _ => (validationError_congr rfl rfl).trans hv
    results := fun h3 => absurd h3 (by decide : ¬ 3 ≤ 2)
    index := fun h4 => absurd h4 (by decide : ¬ 4 ≤ 2)
    pending := fun _ _ => h.pending (by omega) (by omega) }

/-- NORMALIZE stores the results that R91 and R92 name, of a set that passed R90's check. -/
theorem State.Inv.normalized (h : s.Inv) (hst : s.stage.toNat = 2) :
    ({ s with
        numSamples := s.count, duration := s.renderDuration, repeatFreqEff := s.flooredRepeat,
        stage := stInit } : State).Inv :=
  have ⟨hb, hdone, herror⟩ := h.flags_of_stage (by omega)
  have hv := h.parameters (by omega)
  { h with
    status := statusCoherent_of_busy hb hdone herror (by decide : 1 ≤ 3) (by decide : 3 ≤ 12)
    parameters := fun _ => (validationError_congr rfl rfl).trans hv
    results := fun _ => by
      obtain ⟨hcount, hduration, hrepeat⟩ := results_congr (s := s)
        (t := { s with numSamples := s.count, duration := s.renderDuration, repeatFreqEff := s.flooredRepeat,
                       stage := stInit }) rfl
      rw [hcount, hduration, hrepeat]
      exact ⟨rfl, rfl, rfl, State.count_range h.instLegal (badCount_of_valid hv)⟩
    index := fun h4 => absurd h4 (by decide : ¬ 4 ≤ 3)
    pending := fun _ h2 => absurd h2 (by decide : ¬ 3 ≤ 2)
    failed := fun herr => absurd (herr : s.error = true) (by rw [herror]; decide) }

/-! ### The sample loop -/

/-- What no stage from INIT to SCALE writes while the render runs (R183, R184). -/
def State.renderSetup (s : State) :
    Config.Params × Vector Word 28 × Bool × Bool × Bool × Word × Word × F64 × F64 × Word :=
  (s.inst, s.p, s.busy, s.done, s.error, s.errInfo, s.numSamples, s.duration, s.repeatFreqEff, s.renderCycles)

/-- The clauses of the invariant on what the sample loop writes. -/
structure State.LoopOk (s : State) : Prop where
  stage_lo : 4 ≤ s.stage.toNat
  stage_hi : s.stage.toNat ≤ 12
  index : s.i.toNat < s.numSamples.toNat
  buffer : s.bufferOk
  peak : s.peakOk
  brown : s.brownOk
  phase : s.phaseOk

theorem State.Inv.loopOk (h : s.Inv) (hst : 4 ≤ s.stage.toNat) : s.LoopOk :=
  ⟨hst, h.status.2.2.2.2, h.index hst, h.buffer, h.peak, h.brown, h.phase⟩

/-- Inside the render a state with the same setup is of the invariant when its loop clauses hold. -/
theorem State.Inv.of_loopOk (h : s.Inv) (hst : 3 ≤ s.stage.toNat) (hsetup : t.renderSetup = s.renderSetup)
    (hloop : t.LoopOk) : t.Inv := by
  simp only [State.renderSetup, Prod.mk.injEq] at hsetup
  obtain ⟨hinst, hp, hbusy, hdone, herror, hinfo, hnum, hdur, hrep, hcycles⟩ := hsetup
  obtain ⟨hcount, hduration, hrepeat⟩ := results_congr hp
  obtain ⟨hb, hd, he⟩ := h.flags_of_stage (by omega)
  have hlo := hloop.stage_lo
  exact
    { hloop with
      instLegal := by rw [hinst]; exact h.instLegal
      status := statusCoherent_of_busy (hbusy.trans hb) (hdone.trans hd) (herror.trans he) (by omega) hloop.stage_hi
      errInfo := by rw [State.errInfoReservedZero, hinfo]; exact h.errInfo
      parameters := fun _ => (validationError_congr hinst hp).trans (h.parameters (by omega))
      results := fun _ => by
        rw [hcount, hduration, hrepeat, hnum, hdur, hrep, hinst]
        exact h.results hst
      index := fun _ => hloop.index
      pending := fun _ h2 => by omega
      cycles := fun _ => hcycles.trans (h.cycles hb)
      failed := fun herr => by rw [herror, he] at herr; cases herr }

theorem State.Inv.numSamples_pos (h : s.Inv) (hst : 3 ≤ s.stage.toNat) : 0 < s.numSamples.toNat :=
  (h.results hst).2.2.2.1

theorem firstStage_range (o : Config.PhaseOrder) : 4 ≤ (firstStage o).toNat ∧ (firstStage o).toNat ≤ 5 := by
  cases o <;> decide

theorem afterSource_range (o : Config.PhaseOrder) : 4 ≤ (afterSource o).toNat ∧ (afterSource o).toNat ≤ 6 := by
  cases o <;> decide

theorem afterFreq_range (o : Config.PhaseOrder) : 4 ≤ (afterFreq o).toNat ∧ (afterFreq o).toNat ≤ 6 := by
  cases o <;> decide

/-- STORE_PEAK's peak is never negative and never a NaN (R152). -/
theorem storedPeak_peakOk (h : s.peakOk) : s.storedPeak.peakOk := fle_fmax_left _ h

/-- STORE_PEAK keeps the loop clauses, at the next sample and at the start of pass 2 (R96, R152). -/
theorem State.LoopOk.storedPeak_next (h : s.LoopOk) (hi : s.i.toNat < s.inst.maxSamples) :
    s.storedPeak.nextAfterStorePeak.LoopOk := by
  have hpeak := storedPeak_peakOk h.peak
  have hbuffer := storeEntry_bufferOk (w := f32OfF64 s.s) hi h.buffer
  obtain ⟨hlo, hhi⟩ := firstStage_range s.storedPeak.inst.phaseOrder
  rcases nextAfterStorePeak_cases s.storedPeak with ⟨hmore, heq⟩ | ⟨-, heq⟩ <;> rw [heq]
  · exact ⟨hlo, by simp only; omega, (index_succ_toNat hmore).trans_lt hmore, hbuffer, hpeak, h.brown, h.phase⟩
  · exact ⟨(by decide : 4 ≤ 12), (by decide : 12 ≤ 12), (Nat.zero_le _).trans_lt h.index, hbuffer, hpeak, h.brown, h.phase⟩

/-- The end of a render is IDLE with DONE and without ERROR (R97). -/
theorem State.Inv.endOfRender (h : s.Inv) (hst : s.stage.toNat ≠ 0) : s.endOfRender.Inv :=
  have ⟨_, _, herror⟩ := h.flags_of_stage hst
  State.Inv.of_idle h.instLegal rfl rfl (by rw [State.endOfRender_error, herror, Bool.and_false]) h.errInfo h.buffer
    h.peak h.brown h.phase h.failed

/-- SCALE stores an entry of the buffer and goes to the next, or ends the render (R154). -/
theorem State.Inv.scaled_next (h : s.Inv) (hst : s.stage.toNat = 12) (hi : s.i.toNat < s.inst.maxSamples) (w : F32) :
    ({ s with sb := storeEntry s.sb s.i.toNat w } : State).nextAfterScale.Inv := by
  have hbuffer := storeEntry_bufferOk (w := w) hi h.buffer
  have hloop := h.loopOk (by omega)
  have hstored : ({ s with sb := storeEntry s.sb s.i.toNat w } : State).Inv :=
    h.of_loopOk (by omega) rfl { hloop with buffer := hbuffer }
  rcases nextAfterScale_cases { s with sb := storeEntry s.sb s.i.toNat w } with ⟨hmore, heq⟩ | ⟨-, heq⟩ <;> rw [heq]
  · exact hstored.of_loopOk (by simp only; omega) rfl
      ⟨by simp, by simp, (index_succ_toNat hmore).trans_lt hmore, hbuffer, h.peak, h.brown, h.phase⟩
  · exact hstored.endOfRender (by simp only; omega)

theorem EngineStep.inv (hstep : EngineStep s t) (h : s.Inv) : t.Inv := by
  cases hstep with
  | idle => exact h
  | rejected hst hk => exact h.raise _ (validationError_lt hk) (fun _ => (h.pending (by omega) (by omega)).1)
  | accepted hst hv => exact h.accepted hst hv
  | normalized hst => exact h.normalized hst
  | cleared hst a =>
    obtain ⟨hlo, hhi⟩ := firstStage_range s.inst.phaseOrder
    obtain ⟨h0, h1, hneg⟩ := fzero_range
    exact h.of_loopOk (by omega) rfl
      ⟨hlo, by simp only; omega, h.numSamples_pos (by omega), h.buffer, h0, ⟨hneg, h1⟩, .inr ⟨h0, h1⟩⟩
  | sourced hst hu =>
    have hbrown := sourced_brownOk hu h.brown
    obtain ⟨-, x, d, b, k, rfl⟩ := sourced_cases hu
    obtain ⟨hlo, hhi⟩ := afterSource_range s.inst.phaseOrder
    exact h.of_loopOk (by omega) rfl
      { h.loopOk (by omega) with
        stage_lo := hlo, stage_hi := by simp only [State.goto_stage]; omega, brown := hbrown }
  | advanced hst f x =>
    obtain ⟨hlo, hhi⟩ := afterFreq_range s.inst.phaseOrder
    exact h.of_loopOk (by omega) rfl
      { h.loopOk (by omega) with stage_lo := hlo, stage_hi := by simp only; omega, phase := ffrac_range x }
  | shaped hlo hhi hst x y u v =>
    exact h.of_loopOk (by omega) rfl
      { h.loopOk (by omega) with stage_lo := by simp only; omega, stage_hi := by simp only; omega }
  | stored hst hi =>
    have hsetup : s.storedPeak.nextAfterStorePeak.renderSetup = s.renderSetup := by
      rcases nextAfterStorePeak_cases s.storedPeak with ⟨-, heq⟩ | ⟨-, heq⟩ <;> rw [heq] <;> rfl
    exact h.of_loopOk (by omega) hsetup ((h.loopOk (by omega)).storedPeak_next hi)
  | scaled hst hi => exact h.scaled_next hst hi _

/-! ### The bound of the peak -/

/-- Outside pass 1 the bound of the peak says nothing. -/
theorem peakBoundsStored_of_stage (h : t.stage.toNat < 4 ∨ 11 < t.stage.toNat) : t.peakBoundsStored := by
  intro hlo hhi
  omega

/-- A step within pass 1 that leaves the index, the buffer and the peak keeps the bound. -/
theorem peakBoundsStored_of_frame (hb : s.peakBoundsStored) (hlo : 4 ≤ s.stage.toNat) (hhi : s.stage.toNat ≤ 11)
    (hi : t.i = s.i) (hsb : t.sb = s.sb) (hpeak : t.maxSample = s.maxSample) : t.peakBoundsStored := by
  intro _ _
  rw [hi, hsb, hpeak]
  exact hb hlo hhi

/-- The peak that STORE_PEAK takes bounds the entry it stores and those stored before it (R152). -/
theorem storedPeak_bounds (hwf : Memory.wf s.sb = true) (hpeak : s.peakOk) (hlo : 4 ≤ s.stage.toNat)
    (hhi : s.stage.toNat ≤ 11) (hb : s.peakBoundsStored) {j : Nat} (hj : j < s.i.toNat + 1) :
    fisNaN (f64OfF32 (loadEntry s.storedPeak.sb j)) = true ∨
      fle (fabs (f64OfF32 (loadEntry s.storedPeak.sb j))) s.storedPeak.maxSample = true := by
  have hsb : s.storedPeak.sb = storeEntry s.sb s.i.toNat (f32OfF64 s.s) := rfl
  have hmax : s.storedPeak.maxSample = fmax s.maxSample (fabs (f64OfF32 (f32OfF64 s.s))) := rfl
  rw [hsb, hmax]
  rcases Nat.lt_succ_iff_lt_or_eq.1 hj with hlt | rfl
  · rw [load_storeEntry_other hwf hlt.ne]
    exact (hb hlo hhi j hlt).imp_right (fle_fmax_left _)
  · rw [load_storeEntry_same hwf]
    cases hnan : fisNaN (f64OfF32 (f32OfF64 s.s))
    · exact .inr (fle_fmax_right (fisNaN_of_fle hpeak) (by rw [fisNaN_fabs, hnan]))
    · exact .inl rfl

theorem EngineStep.peakBoundsStored (hstep : EngineStep s t) (h : s.Inv) (hb : s.peakBoundsStored) :
    t.peakBoundsStored := by
  cases hstep with
  | idle => exact hb
  | rejected => exact peakBoundsStored_of_stage (.inl (by decide : 0 < 4))
  | accepted => exact peakBoundsStored_of_stage (.inl (by decide : 2 < 4))
  | normalized => exact peakBoundsStored_of_stage (.inl (by decide : 3 < 4))
  | cleared => exact fun _ _ j hj => absurd hj (Nat.not_lt_zero j)
  | sourced hst hu =>
    obtain ⟨-, x, d, b, k, rfl⟩ := sourced_cases hu
    exact peakBoundsStored_of_frame hb (by omega) (by omega) rfl rfl rfl
  | advanced hst => exact peakBoundsStored_of_frame hb (by omega) (by omega) rfl rfl rfl
  | shaped hlo hhi => exact peakBoundsStored_of_frame hb (by omega) (by omega) rfl rfl rfl
  | stored hst hi =>
    rcases nextAfterStorePeak_cases s.storedPeak with ⟨hmore, heq⟩ | ⟨-, heq⟩ <;> rw [heq]
    · intro _ _ j hj
      have hj' : j < (s.storedPeak.i + 1).toNat := hj
      rw [index_succ_toNat hmore] at hj'
      exact storedPeak_bounds h.buffer.1 h.peak (by omega) (by omega) hb hj'
    · exact peakBoundsStored_of_stage (.inr (by decide : 11 < 12))
  | scaled hst hi =>
    rcases nextAfterScale_cases { s with sb := storeEntry s.sb s.i.toNat s.scaledEntry } with ⟨-, heq⟩ | ⟨-, heq⟩ <;>
      rw [heq]
    · exact peakBoundsStored_of_stage (.inr (by decide : 11 < 12))
    · exact peakBoundsStored_of_stage (.inl (by decide : 0 < 4))

theorem BusStep.peakBoundsStored {d : BitVec 2} {a : Nat} {v : Word} (hstep : BusStep s d a v t)
    (hb : s.peakBoundsStored) : t.peakBoundsStored := by
  cases hstep with
  | command =>
    rcases issueCommand_cases s v with ⟨-, heq⟩ | ⟨-, -, heq⟩ | ⟨-, -, heq⟩ | ⟨-, -, heq⟩ | ⟨-, -, -, -, heq⟩ <;>
      rw [heq]
    · exact peakBoundsStored_of_stage (.inl (by decide : 0 < 4))
    · exact hb
    · exact hb
    · exact peakBoundsStored_of_stage (.inl (by decide : 1 < 4))
    · exact peakBoundsStored_of_stage (.inl (by decide : 0 < 4))
  | _ => exact hb

end

end Sys2Proof.Machine
end

section
/-!
SUPPORT. The bus as the host sees it (R21 to R33, R47, R50 to R52): what a legal read answers, what a write to a
parameter register does, and the layout of STATUS (R23).
-/

namespace Sys2Proof.Machine

section
variable {s : State}

/-! ### Reads and parameter writes -/

/-- A legal 8-byte read below the sample window answers the register's word (R50). -/
theorem execRd64_of_legal {a : Nat} (ha : a < 0x1000) (hl : legalRead a 8 = true) :
    exec (.rd64 a) s = .next { s with hostData := s.readWord a } := by
  have hread : s.memRead a 8 = s.answer (s.readWord a) := by rw [State.memRead, if_pos hl]
  exact (inAperture_of_lt (lt_aperture_of_register ha)).trans (congrArg _ hread)

theorem legalRead_param (k : Fin 28) : legalRead (0x100 + 8 * k.val) 8 = true := by decide +revert

theorem legalWrite_param (k : Fin 28) : legalWrite (0x100 + 8 * k.val) 8 = true := by decide +revert

theorem param_index (k : Nat) : (0x100 + 8 * k - 0x100) / 8 = k := by omega

/-- The word read at P[k]'s offset (R24, R47). -/
theorem readWord_param (k : Fin 28) : s.readWord (0x100 + 8 * k.val) = s.p[k] := by
  have hk := k.isLt
  rw [State.readWord, if_neg (by omega), if_pos (by omega), param_index, State.param]
  simp

theorem execRd64_param (s : State) (k : Fin 28) :
    exec (.rd64 (0x100 + 8 * k.val)) s = .next { s with hostData := s.p[k] } := by
  have hk := k.isLt
  rw [execRd64_of_legal (by omega) (legalRead_param k), readWord_param]

/-- A write to P[k]'s offset is ignored while BUSY, and else stores the word (R51, R183). -/
theorem execWr64_param (s : State) (k : Fin 28) (v : Word) :
    exec (.wr64 (0x100 + 8 * k.val) v) s = .next (if s.busy then s.flagIgnored else s.setParam k.val v) := by
  have hk := k.isLt
  have hwrite : s.memWrite (0x100 + 8 * k.val) 8 v = if s.busy then s.flagIgnored else s.setParam k.val v := by
    rw [State.memWrite, if_pos (legalWrite_param k), if_neg (by omega), param_index]
  exact (inAperture_of_lt (lt_aperture_of_register (by omega))).trans (congrArg _ hwrite)

/-- A 4-byte read of an entry of the window is legal and answers the entry's word (R50, R52). -/
theorem execRd32_entry {i : Nat} (hi : i < s.inst.maxSamples) :
    exec (.rd32 (0x1000 + 4 * i)) s = .next { s with hostData := (s.sampleWindowRead i).setWidth 64 } := by
  have hl : legalRead (0x1000 + 4 * i) 4 = true := by
    rw [legalRead, if_neg (by omega)]
    simp only [beq_self_eq_true, Bool.true_and, beq_iff_eq]
    omega
  have hword : s.readWord (0x1000 + 4 * i) = (s.sampleWindowRead i).setWidth 64 := by
    rw [State.readWord, if_neg (by omega), if_neg (by omega), show (0x1000 + 4 * i - 0x1000) / 4 = i by omega]
  have hread : s.memRead (0x1000 + 4 * i) 4 = s.answer ((s.sampleWindowRead i).setWidth 64) := by
    rw [State.memRead, if_pos hl, hword]
  refine (inAperture_of_lt ?_).trans (congrArg _ hread)
  rw [State.aperture, apertureBytes]
  omega

/-- An entry at or past NUM_SAMPLES reads 0 (R52). -/
theorem sampleWindowRead_of_le {i : Nat} (h : s.numSamples.toNat ≤ i) : s.sampleWindowRead i = 0 := if_pos h

/-! ### STATUS -/

theorem flagBit_eq (b : Bool) (pos : Nat) : flagBit b pos = b.toNat * 2 ^ pos := by
  cases b <;> simp [flagBit]

/-- The number behind STATUS: a bit for each flag, and the stage from bit 8 (R23). -/
theorem statusWord_toNat (s : State) :
    s.statusWord.toNat =
      s.busy.toNat + 2 * s.done.toNat + 4 * s.error.toNat + 8 * s.accessErr.toNat + 16 * s.ignored.toNat +
        256 * s.stage.toNat := by
  have := s.stage.isLt
  have := s.busy.toNat_le
  have := s.done.toNat_le
  have := s.error.toNat_le
  have := s.accessErr.toNat_le
  have := s.ignored.toNat_le
  simp only [State.statusWord, flagBit_eq, BitVec.toNat_ofNat]
  omega

/-- A bit of a word is a flag when the number's digit is. -/
theorem getLsbD_eq_of_digit {w : Word} {k : Nat} {b : Bool} (h : w.toNat / 2 ^ k % 2 = b.toNat) :
    w.getLsbD k = b := by
  rw [BitVec.getLsbD, Nat.testBit_eq_decide_div_mod_eq, h]
  cases b <;> rfl

/-- A field of a word is a number when the word's digits are. -/
theorem extractLsb'_eq_of_digits {w : Word} {k n : Nat} {x : BitVec n} (h : w.toNat / 2 ^ k % 2 ^ n = x.toNat) :
    w.extractLsb' k n = x :=
  BitVec.eq_of_toNat_eq (by rw [BitVec.extractLsb'_toNat, Nat.shiftRight_eq_div_pow, h])

end

end Sys2Proof.Machine
end

section
/-!
PROOFS. The statements on the state: its invariant and the bound of the peak, STORE_PEAK, what the host can and cannot
change, and the registers as it reads them.
-/

namespace Sys2Proof.Proofs.MachineState
open Sys2Proof.Machine

/-! ### The invariant -/

/-- Settles O45: taking the turn changes the model's host side alone, and then the cases of one step. -/
theorem everyStepKeepsTheInvariant : Obligations.EveryStepKeepsTheInvariant := by
  intro s t h hstep
  have hturn : s.takeTurn.Inv := h.host_side s.accessErr s.ignored s.agenda.tail s.hostData
  rcases step_next hstep with ⟨-, he⟩ | ⟨r, -, -, hb⟩
  · exact he.inv hturn
  · exact hb.inv hturn

/-- Settles O37: only STORE_PEAK moves the index, the buffer or the peak of pass 1, and it takes the maximum. -/
theorem peakBoundsEveryStoredSample : Obligations.PeakBoundsEveryStoredSample := by
  intro s t h hpeak hstep
  have hturn : s.takeTurn.Inv := h.host_side s.accessErr s.ignored s.agenda.tail s.hostData
  have hpeak' : s.takeTurn.peakBoundsStored := hpeak
  rcases step_next hstep with ⟨-, he⟩ | ⟨r, -, -, hb⟩
  · exact he.peakBoundsStored hturn hpeak'
  · exact hb.peakBoundsStored hpeak'

/-- Settles O44: the reset state is what RESET makes of it. -/
theorem resetSatisfiesTheInvariant : Obligations.ResetSatisfiesTheInvariant :=
  ⟨resetBlock_inv (s := State.reset) (by decide) ⟨reset_buffer_wf, fun _ he => by cases he⟩,
    peakBoundsStored_of_stage (.inl (by decide))⟩

/-- Settles O54: the invariant holds NUM_SAMPLES at 0, and the window is cut there. -/
theorem aFailedRenderShowsNoSample : Obligations.AFailedRenderShowsNoSample := by
  intro s h herr hcode i hi
  have hn : s.numSamples.toNat ≤ i := by
    rw [h.failed herr hcode]
    exact Nat.zero_le i
  rw [execRd32_entry hi, sampleWindowRead_of_le hn]
  rfl

/-! ### STORE_PEAK -/

/-- Settles O34: the new buffer is the stored entry in the old one. -/
theorem storePeakStoresTheSampleAndTracksThePeak : Obligations.StorePeakStoresTheSampleAndTracksThePeak := by
  intro s hwf hi
  refine ⟨storeEntry s.sb s.i.toNat (f32OfF64 s.s), load_storeEntry_same hwf,
    fun a ha => storeEntry_read_other hwf ha, ?_⟩
  have hexec : exec .storePeak s = .next s.storedPeak.nextAfterStorePeak := atEntry_of_lt hi
  have hfirst : firstStage s.inst.phaseOrder = if s.inst.phaseOrder = .sourceThenAdvance then 0x4 else 0x5 := by
    cases s.inst.phaseOrder <;> rfl
  intro m peak
  rw [hexec]
  rcases nextAfterStorePeak_cases s.storedPeak with ⟨hmore, heq⟩ | ⟨hlast, heq⟩ <;> rw [heq]
  · have hmore' : s.i.toNat + 1 < s.numSamples.toNat := hmore
    rw [if_pos hmore', ← hfirst]
    rfl
  · have hlast' : ¬ s.i.toNat + 1 < s.numSamples.toNat := Nat.not_lt.2 hlast
    rw [if_neg hlast']
    rfl

/-! ### What a step cannot change -/

/-- Settles O49: no stage writes a parameter, and a transaction writes one only while not BUSY. -/
theorem parametersAreConstantDuringARender : Obligations.ParametersAreConstantDuringARender := by
  refine ⟨fun s t hturn hstep => ?_, fun s t hb hcmd hstep => ?_⟩
  · rcases step_next hstep with ⟨-, he⟩ | ⟨r, hhead, -, -⟩
    · exact he.frame.2.1
    · exact absurd hturn (not_engineTurn_of_host hhead)
  · rcases step_next_of_not_reset hcmd hstep with he | ⟨d, a, v, hbus, hv⟩
    · exact he.frame.2.1
    · exact hbus.p_of_busy hb hv

/-- Settles O52: no stage writes a sticky flag, and a transaction other than RESET only sets one. -/
theorem stickyFlagsAreClearedOnlyByReset : Obligations.StickyFlagsAreClearedOnlyByReset := by
  intro s t hcmd hstep
  rcases step_next_of_not_reset hcmd hstep with he | ⟨d, a, v, hbus, hv⟩
  · obtain ⟨-, -, haccess, hignored⟩ := he.frame
    exact ⟨haccess.trans, hignored.trans⟩
  · exact hbus.sticky hv

/-! ### The registers -/

/-- Settles O38: each offset is that of a legal read. -/
theorem registersReadAtTheirOffsets : Obligations.RegistersReadAtTheirOffsets := by
  intro s
  refine ⟨fun a v hav => ?_, execRd64_param s⟩
  simp only [List.mem_cons, List.not_mem_nil, or_false, Prod.mk.injEq] at hav
  rcases hav with ⟨rfl, rfl⟩ | ⟨rfl, rfl⟩ | ⟨rfl, rfl⟩ | ⟨rfl, rfl⟩ | ⟨rfl, rfl⟩ | ⟨rfl, rfl⟩ | ⟨rfl, rfl⟩ |
    ⟨rfl, rfl⟩ | ⟨rfl, rfl⟩ | ⟨rfl, rfl⟩ | ⟨rfl, rfl⟩ | ⟨rfl, rfl⟩ | ⟨rfl, rfl⟩ <;>
    exact execRd64_of_legal (by decide) (by decide)

/-- Settles O39: the word's number has a binary digit for each flag and a hexadecimal one for the stage. -/
theorem statusWordHasItsLayout : Obligations.StatusWordHasItsLayout := by
  intro s
  have hword := statusWord_toNat s
  have := s.stage.isLt
  have := s.busy.toNat_le
  have := s.done.toNat_le
  have := s.error.toNat_le
  have := s.accessErr.toNat_le
  have := s.ignored.toNat_le
  exact ⟨getLsbD_eq_of_digit (by omega), getLsbD_eq_of_digit (by omega), getLsbD_eq_of_digit (by omega),
    getLsbD_eq_of_digit (by omega), getLsbD_eq_of_digit (by omega),
    extractLsb'_eq_of_digits (show s.statusWord.toNat / 2 ^ 5 % 2 ^ 3 = 0 by omega),
    extractLsb'_eq_of_digits (by omega),
    extractLsb'_eq_of_digits (show s.statusWord.toNat / 2 ^ 12 % 2 ^ 52 = 0 by omega)⟩

/-- Settles O42: a write goes through `setParam`, whose vector reads back at k and is unchanged elsewhere. -/
theorem parameterWritesAreStoredVerbatim : Obligations.ParameterWritesAreStoredVerbatim := by
  intro s k v
  refine ⟨fun hb => ?_, fun hb => ⟨s.setParam k.val v, ?_, rfl, ?_, fun j hj => ?_, ?_⟩⟩
  · rw [execWr64_param, if_pos hb]
    rfl
  · rw [execWr64_param, hb]
    rfl
  · simp
  · simp [Fin.val_ne_of_ne hj.symm]
  · rw [execRd64_param]
    simp

end Sys2Proof.Proofs.MachineState
end

section
/-!
SUPPORT. The fetch and the turns (R46, R56, R98): which operation a step runs, when it stops, and when it answers a
next state.
-/

namespace Sys2Proof.Machine

section
variable {s : State} {i : Instr}

/-! ### The fetch -/

theorem State.fetch_of_engineTurn (h : s.engineTurn) : s.fetch = fetchStage s.stage := by
  unfold State.fetch
  split
  · next r l ha => exact absurd ha (h r l)
  · rfl

theorem State.fetch_of_host {r : BusRequest} {l : List Turn} (ha : s.agenda = .host r :: l) :
    s.fetch = if r.addr < s.inst.base then .fault .outsideAperture
      else .next (decodeBus r.desc (r.addr - s.inst.base) r.data) := by
  rw [State.fetch, ha]

theorem State.engineTurn_or_host (s : State) : s.engineTurn ∨ ∃ r l, s.agenda = .host r :: l := by
  by_cases h : ∃ r l, s.agenda = .host r :: l
  · exact .inr h
  · exact .inl fun r l ha => h ⟨r, l, ha⟩

/-! ### The operation a step runs -/

theorem step_of_engineTurn (h : s.engineTurn) (hd : decodeStage s.stage = .ok i) : step s = exec i s.takeTurn := by
  rw [step, State.fetch_of_engineTurn h, fetchStage, hd]

theorem step_of_host {r : BusRequest} {l : List Turn} (ha : s.agenda = .host r :: l) (hbase : s.inst.base ≤ r.addr) :
    step s = exec (decodeBus r.desc (r.addr - s.inst.base) r.data) s.takeTurn := by
  rw [step, State.fetch_of_host ha, if_neg (Nat.not_lt.2 hbase)]

/-! ### The stops (log entries 11 and 12) -/

theorem step_of_host_below_base {r : BusRequest} {l : List Turn} (ha : s.agenda = .host r :: l)
    (hbase : r.addr < s.inst.base) : step s = .fault .outsideAperture := by
  rw [step, State.fetch_of_host ha, if_pos hbase]

/-- The codes 0xD to 0xF are reserved (R68). -/
theorem decodeStage_of_gt {c : BitVec 4} (h : 12 < c.toNat) : decodeStage c = .error .reservedStage := by
  unfold decodeStage
  split
  case h_14 => rfl
  all_goals omega

theorem step_of_reserved_stage (h : s.engineTurn) (hst : 12 < s.stage.toNat) : step s = .refused .reservedStage := by
  rw [step, State.fetch_of_engineTurn h, fetchStage, decodeStage_of_gt hst]

/-- A tag above 9 selects no source operation (R66). -/
theorem sourced_of_gt (h : 9 < s.pWaveform.toNat) : s.sourced = none := by
  cases hs : s.sourced with
  | none => rfl
  | some t => exact absurd (sourced_cases hs).1 (Nat.not_le.2 h)

theorem atEntry_of_le {t : State} (h : s.inst.maxSamples ≤ s.i.toNat) : s.atEntry t = .fault .noSuchEntry :=
  if_neg (Nat.not_lt.2 h)

/-! ### Progress -/

theorem firstIllegal_eq_none {l : List Nat} (h : s.firstIllegal l = none) {k : Nat} (hk : k ∈ l) :
    legalParam s.inst.maxHarmonics k (s.param k) = true := by
  induction l with
  | nil => cases hk
  | cons j l ih =>
    rw [State.firstIllegal] at h
    split at h
    · next hj =>
      rcases List.mem_cons.1 hk with rfl | hk
      · exact hj
      · exact ih h hk
    · cases h

/-- Every parameter of a valid set is legal (R87, R88). -/
theorem legalParam_of_valid (h : s.validationError = none) {k : Nat} (hk : k < 28) :
    legalParam s.inst.maxHarmonics k (s.param k) = true := by
  unfold State.validationError at h
  split at h
  · cases h
  · next hnone => exact firstIllegal_eq_none hnone (List.mem_range.2 hk)

/-- A valid set names a source operation (R88, R100). -/
theorem pWaveform_le_of_valid (h : s.validationError = none) : s.pWaveform.toNat ≤ 9 :=
  of_decide_eq_true (legalParam_of_valid h (k := 18) (by norm_num))

/-- Within a render the index is that of an entry of the buffer (R55, R90). -/
theorem State.Inv.index_lt_maxSamples (h : s.Inv) (hst : 4 ≤ s.stage.toNat) : s.i.toNat < s.inst.maxSamples := by
  obtain ⟨-, -, -, -, hfits⟩ := h.results (by omega)
  exact (h.index hst).trans_le hfits

theorem execValidate_next (s : State) : ∃ t, execValidate s = .next t := by
  cases hv : s.validationError with
  | none => exact ⟨_, by rw [execValidate, hv]⟩
  | some k => exact ⟨_, by rw [execValidate, hv]⟩

theorem execSource_next (h : s.pWaveform.toNat ≤ 9) : ∃ t, execSource s = .next t := by
  obtain ⟨u, hu⟩ := sourced_of_le h
  exact ⟨_, by rw [execSource, hu]⟩

/-- No stage of a state of the invariant stops: SOURCE has an operation, STORE_PEAK and SCALE an entry (R55, R100). -/
theorem State.Inv.exec_stage_next (h : s.Inv) (hd : decodeStage s.stage = .ok i) : ∃ t, exec i s = .next t := by
  unfold decodeStage at hd
  split at hd <;> cases hd
  case h_2 => exact execValidate_next s
  case h_5 hst => exact execSource_next (pWaveform_le_of_valid (h.parameters (by omega)))
  case h_12 hst | h_13 hst => exact ⟨_, atEntry_of_lt (h.index_lt_maxSamples (by omega))⟩
  all_goals exact ⟨_, rfl⟩

/-- Inside the aperture no transaction stops (R53). -/
theorem exec_bus_next {a : Nat} (ha : a < s.aperture) (d : BitVec 2) (v : Word) :
    ∃ t, exec (decodeBus d a v) s = .next t := by
  unfold decodeBus
  split <;> exact ⟨_, inAperture_of_lt ha⟩

end

end Sys2Proof.Machine
end

section
/-!
SUPPORT. What a host turn leaves as it was: while a render runs (R54, R183, R184), and once it has ended (R57, R188).
-/

namespace Sys2Proof.Machine

section
variable {s t : State} {d : BitVec 2} {a : Nat} {v : Word}

/-- While BUSY a transaction that is not a RESET reaches the sticky flags and the word the host gets, no more (R183,
R184). -/
theorem BusStep.frame_of_busy (h : BusStep s d a v t) (hb : s.busy = true) (hv : d = 0b11 → a = 0x008 → v ≠ 0x1) :
    t = { s with hostData := t.hostData, accessErr := t.accessErr, ignored := t.ignored } := by
  cases h with
  | parameter hb' => exact absurd hb (by simp [hb'])
  | command hd ha =>
    rcases issueCommand_cases s v with ⟨h1, -⟩ | ⟨-, -, heq⟩ | ⟨hb', -⟩ | ⟨hb', -⟩ | ⟨hb', -⟩
    · exact absurd h1 (hv hd ha)
    · rw [heq]
      rfl
    all_goals exact absurd hb (by simp [hb'])
  | _ => rfl

/-- BUSY, the results of a render and its samples (R26 to R32, R42). -/
def State.results (s : State) : Bool × Word × F64 × F64 × F64 × Word × Memory :=
  (s.busy, s.numSamples, s.duration, s.repeatFreqEff, s.maxSample, s.renderCycles, s.sb)

theorem results_eq_iff :
    t.results = s.results ↔
      t.busy = s.busy ∧ t.numSamples = s.numSamples ∧ t.duration = s.duration ∧ t.repeatFreqEff = s.repeatFreqEff ∧
        t.maxSample = s.maxSample ∧ t.renderCycles = s.renderCycles ∧ t.sb = s.sb := by
  simp only [State.results, Prod.mk.injEq]

/-- While not BUSY only START and RESET reach the results: an illegal command's error ends no render (R84, R188). -/
theorem BusStep.results_of_not_busy (h : BusStep s d a v t) (hb : s.busy = false)
    (h1 : d = 0b11 → a = 0x008 → v ≠ 0x1) (h2 : d = 0b11 → a = 0x008 → v ≠ 0x2) : t.results = s.results := by
  cases h with
  | command hd ha =>
    rcases issueCommand_cases s v with ⟨hv, -⟩ | ⟨hb', -⟩ | ⟨-, -, heq⟩ | ⟨-, hv, -⟩ | ⟨-, -, -, -, heq⟩
    · exact absurd hv (h1 hd ha)
    · exact absurd hb' (by simp [hb])
    · rw [heq]
    · exact absurd hv (h2 hd ha)
    · rw [heq, results_eq_iff, hb]
      exact ⟨rfl, rfl, rfl, rfl, rfl, rfl, rfl⟩
  | _ => rfl

theorem State.statusCoherent.stage_of_not_busy (h : s.statusCoherent) (hb : s.busy = false) : s.stage = stIdle := by
  obtain ⟨hbusy, -⟩ := h
  rw [hb] at hbusy
  simpa using hbusy

/-- In IDLE the engine has no step (R96, R174). -/
theorem EngineStep.eq_of_idle (h : EngineStep s t) (hst : s.stage = stIdle) : t = s := by
  have h0 : s.stage.toNat = 0 := by rw [hst]; rfl
  cases h with
  | idle => rfl
  | _ => omega

end

end Sys2Proof.Machine
end

section
/-!
SUPPORT. Which accesses are legal (R49, R51), what an illegal one does (R53), and a read done twice (R50).
-/

namespace Sys2Proof.Machine

section
variable {s : State} {a n : Nat}

/-! ### Legal accesses -/

/-- A legal 8-byte read is at a register's offset (R49). -/
theorem legalRead_eight_iff :
    legalRead a 8 = true ↔ a % 8 = 0 ∧ (a ≤ 0x060 ∨ (0x100 ≤ a ∧ a ≤ 0x1DF)) := by
  unfold legalRead
  split <;> simp <;> omega

/-- A legal 4-byte read is at an entry of the sample window (R49). -/
theorem legalRead_four_iff : legalRead a 4 = true ↔ a % 4 = 0 ∧ 0x1000 ≤ a := by
  unfold legalRead
  split <;> simp <;> omega

/-- A legal 8-byte write is at CMD or at a parameter register (R51). -/
theorem legalWrite_eight_iff :
    legalWrite a 8 = true ↔ a % 8 = 0 ∧ (a = 0x008 ∨ (0x100 ≤ a ∧ a ≤ 0x1DF)) := by
  simp only [legalWrite, beq_self_eq_true, Bool.true_and, Bool.and_eq_true, Bool.or_eq_true, beq_iff_eq,
    decide_eq_true_eq]
  omega

theorem memRead_of_illegal (h : ¬ legalRead a n = true) :
    s.memRead a n = { s with accessErr := true, hostData := 0 } := if_neg h

theorem memWrite_of_illegal {v : Word} (h : ¬ legalWrite a n = true) :
    s.memWrite a n v = { s with accessErr := true } := if_neg h

/-! ### Reads -/

/-- No register shows the word the host got last. -/
theorem readWord_answer (s : State) (w : Word) (a : Nat) : (s.answer w).readWord a = s.readWord a := rfl

theorem memRead_inst (s : State) (a n : Nat) : (s.memRead a n).inst = s.inst := by
  rcases memRead_cases s a n with ⟨-, heq⟩ | ⟨-, heq⟩ <;> rw [heq] <;> rfl

/-- A read done again is the same read (R50). -/
theorem memRead_memRead (s : State) (a n : Nat) : (s.memRead a n).memRead a n = s.memRead a n := by
  by_cases hl : legalRead a n = true
  · have hread (u : State) : u.memRead a n = u.answer (u.readWord a) := if_pos hl
    rw [hread, hread, readWord_answer]
    rfl
  · rw [memRead_of_illegal hl, memRead_of_illegal hl]

/-- A read in the aperture answers a state on which it answers that state again. -/
theorem inAperture_memRead_twice (ha : a < s.aperture) (n : Nat) :
    ∃ t, s.inAperture a (s.memRead a n) = .next t ∧ t.inAperture a (t.memRead a n) = .next t := by
  refine ⟨s.memRead a n, inAperture_of_lt ha, ?_⟩
  rw [inAperture_of_lt (by rwa [State.aperture, memRead_inst]), memRead_memRead]

end

end Sys2Proof.Machine
end

section
/-!
PROOFS. The statements on the bus and the turns: what a step runs and where it stops, what a host turn cannot change,
the sample window, illegal accesses, and reads done twice.
-/

namespace Sys2Proof.Proofs.HostAccess
open Sys2Proof.Machine

/-! ### Steps and stops -/

/-- Settles O46: the invariant gives each stage what it asks for, and R53 gives each transaction an effect. -/
theorem noReachableStepStops : Obligations.NoReachableStepStops := by
  intro s h hhost
  have hturn : s.takeTurn.Inv := h.host_side s.accessErr s.ignored s.agenda.tail s.hostData
  rcases s.engineTurn_or_host with hengine | ⟨r, l, ha⟩
  · obtain ⟨-, -, -, -, hstage⟩ := h.status
    obtain ⟨i, hd⟩ := decodeStage_of_le hstage
    rw [step_of_engineTurn hengine hd]
    exact hturn.exec_stage_next hd
  · obtain ⟨hbase, hlt⟩ := hhost r l ha
    have hoffset : r.addr - s.inst.base < s.takeTurn.aperture := Nat.sub_lt_left_of_lt_add hbase hlt
    rw [step_of_host ha hbase]
    exact exec_bus_next hoffset _ _

/-- Settles O3: a step is its fetch, and `takeTurn` drops the turn's head. -/
theorem stepRunsTheDecodedOperation : Obligations.StepRunsTheDecodedOperation := by
  refine ⟨fun s i hturn hd => step_of_engineTurn hturn hd, fun s r l i ha hbase hd => ?_⟩
  cases hd
  rw [step_of_host ha hbase, State.takeTurn, ha, List.tail_cons]

/-- Settles O4: each stop is the failing branch of one check. -/
theorem stopsAtTargetsTheSpecGivesNoEffect : Obligations.StopsAtTargetsTheSpecGivesNoEffect := by
  refine ⟨fun s a v w ha => ?_, fun s r l => step_of_host_below_base, fun s => step_of_reserved_stage,
    fun s hw => ?_, fun s hi => ⟨atEntry_of_le hi, atEntry_of_le hi⟩⟩
  · exact ⟨inAperture_of_le ha, inAperture_of_le ha, inAperture_of_le ha, inAperture_of_le ha⟩
  · change execSource s = .fault .unknownWaveform
    rw [execSource, sourced_of_gt hw]

/-! ### What a host turn cannot change -/

/-- Settles O50: BUSY shuts out parameter writes and every command but RESET. -/
theorem theHostCannotDisturbARender : Obligations.TheHostCannotDisturbARender := by
  intro s t r hb hhost hcmd hstep
  obtain ⟨hhead, -, -⟩ := hhost
  rcases step_next hstep with ⟨hturn, -⟩ | ⟨q, hhead', hbase, hbus⟩
  · exact absurd hturn (not_engineTurn_of_host hhead)
  · exact hbus.frame_of_busy hb fun hd ha hv => hcmd (hv ▸ commandTurn_of_host hhead' hbase hd ha)

/-- Settles O51: coherence puts the engine in IDLE, and of the transactions only START and RESET write a result. -/
theorem resultsStayUntilStartOrReset : Obligations.ResultsStayUntilStartOrReset := by
  intro s t hstatus hb hreset hstart hstep
  rw [← hb]
  refine results_eq_iff.1 (?_ : t.results = s.takeTurn.results)
  rcases step_next hstep with ⟨-, he⟩ | ⟨r, hhead, hbase, hbus⟩
  · rw [he.eq_of_idle (hstatus.stage_of_not_busy hb)]
  · exact hbus.results_of_not_busy hb (fun hd ha hv => hreset (hv ▸ commandTurn_of_host hhead hbase hd ha))
      fun hd ha hv => hstart (hv ▸ commandTurn_of_host hhead hbase hd ha)

/-! ### Accesses -/

/-- Settles O40: R52's cases are those of the window read. -/
theorem sampleWindowReadsTheEntry : Obligations.SampleWindowReadsTheEntry := fun _ _ hi => execRd32_entry hi

/-- Settles O41: the offsets named are those that are not legal. -/
theorem illegalAccessesOnlySetAccessErr : Obligations.IllegalAccessesOnlySetAccessErr := by
  refine fun s a ha => ⟨fun h => ?_, fun h => ?_, fun v => ?_, fun v h => ?_⟩ <;>
    refine (inAperture_of_lt ha).trans (congrArg _ ?_)
  · exact memRead_of_illegal (mt legalRead_eight_iff.1 h)
  · exact memRead_of_illegal (mt legalRead_four_iff.1 h)
  · exact memWrite_of_illegal (by simp [legalWrite_four])
  · exact memWrite_of_illegal (mt legalWrite_eight_iff.1 h)

/-- Settles O43: a read leaves everything it reads. -/
theorem readsAreIdempotent : Obligations.ReadsAreIdempotent :=
  fun _ _ ha => ⟨inAperture_memRead_twice ha 4, inAperture_memRead_twice ha 8⟩

end Sys2Proof.Proofs.HostAccess
end

section
/-!
SUPPORT. The decoders and the encoder against each other (R65, R66, R68, R72, R78): what each operation's word decodes
to, which word a decoded operation stands for, and the source operation a waveform tag selects (R67, R100).
-/

namespace Sys2Proof

/-! ### An operation's word decodes to it -/

/-- The encoder's word is read back as the operation, well formed or not: no format bounds the offset. Only a 4-byte
write changes the width of what it carries, widening its data to the 64 lanes and narrowing it again. -/
theorem decode_encode (i : Instr) : decode (encode i) = .ok i := by
  cases i with
  | wr32 a v =>
    have hlanes : (v.setWidth 64).setWidth 32 = v := by
      rw [BitVec.setWidth_setWidth_of_le v (by decide), BitVec.setWidth_eq]
    exact congrArg (fun w => Except.ok (Instr.wr32 a w)) hlanes
  | _ => rfl

/-! ### A decoded word is its operation's word -/

theorem encode_of_decodeCmd {w : Word} {i : Instr} (h : decodeCmd w = .ok i) : encode i = .cmd w := by
  rcases Machine.decodeCmd_cases w with ⟨rfl, hd⟩ | ⟨rfl, hd⟩ | ⟨rfl, hd⟩ | ⟨-, -, -, hd⟩ <;>
    cases hd.symm.trans h <;> rfl

theorem encode_of_decodeWaveform {tag : Word} {i : Instr} (h : decodeWaveform tag = .ok i) :
    encode i = .waveform tag := by
  unfold decodeWaveform at h
  split at h <;> cases h
  all_goals next htag => exact congrArg Encoded.waveform (BitVec.eq_of_toNat_eq htag.symm)

theorem encode_of_decodeStage {code : BitVec 4} {i : Instr} (h : decodeStage code = .ok i) :
    encode i = .stage code := by
  unfold decodeStage at h
  split at h <;> cases h
  all_goals next hcode => exact congrArg Encoded.stage (BitVec.eq_of_toNat_eq hcode.symm)

/-! ### A transaction (R72) -/

theorem desc_cases : ∀ d : BitVec 2, d = 0b00 ∨ d = 0b01 ∨ d = 0b10 ∨ d = 0b11 := by decide

/-- A 4-byte write carries the low four of its byte lanes (R48). -/
theorem setWidth_low_lanes (v : Word) : (v.setWidth 32).setWidth 64 = v &&& 0xFFFFFFFF#64 := by
  refine BitVec.eq_of_toNat_eq ?_
  have hmask : (0xFFFFFFFF#64).toNat = 2 ^ 32 - 1 := rfl
  rw [BitVec.toNat_and, hmask, Nat.and_two_pow_sub_one_eq_mod, BitVec.toNat_setWidth, BitVec.toNat_setWidth]
  omega

/-- A transaction is encoded with its descriptor, its offset and the data lanes that its direction and size use. -/
theorem encode_decodeBus (d : BitVec 2) (a : Nat) (v : Word) :
    encode (decodeBus d a v) =
      .bus d a (if d = 0b01 then v &&& 0xFFFFFFFF#64 else if d = 0b11 then v else 0) := by
  rcases desc_cases d with rfl | rfl | rfl | rfl
  · rfl
  · exact congrArg (Encoded.bus 0b01 a) (setWidth_low_lanes v)
  · rfl
  · rfl

end Sys2Proof

namespace Sys2Proof.Machine

/-! ### The tagged source operation -/

/-- The operation a waveform tag decodes to is the one SOURCE selects (R67, R100). -/
theorem sourced_of_decodeWaveform {s : State} {i : Instr} (h : decodeWaveform s.pWaveform = .ok i) :
    ∃ u, exec i s = .next u ∧ s.sourced = some u := by
  unfold decodeWaveform at h
  split at h <;> cases h
  all_goals next htag => exact ⟨_, rfl, by simp only [State.sourced, htag]⟩

theorem afterSource_eq (o : Config.PhaseOrder) :
    afterSource o = if o = .sourceThenAdvance then 0x5 else 0x6 := by
  cases o <;> rfl

theorem execSource_of_sourced {s u : State} (h : s.sourced = some u) :
    execSource s = .next { u with stage := if s.inst.phaseOrder = .sourceThenAdvance then 0x5 else 0x6 } := by
  rw [execSource, h, ← afterSource_eq]
  rfl

end Sys2Proof.Machine
end

section
/-!
PROOFS. The statements on the encoding: the decoder and the encoder invert each other, the spec's own words, and the
operation a waveform tag stands for.
-/

namespace Sys2Proof.Proofs.Encoding
open Sys2Proof.Machine

/-- Settles O1: a word that decodes is one of the listed codes, and of a transaction only a 4-byte write drops lanes. -/
theorem decodeInvertsEncodeOnEveryFormat : Obligations.DecodeInvertsEncodeOnEveryFormat :=
  ⟨fun i _ => decode_encode i, fun _ _ => encode_of_decodeCmd, fun _ _ => encode_of_decodeWaveform,
    fun _ _ => encode_of_decodeStage, fun d a v => ⟨decodeBus d a v, rfl, encode_decodeBus d a v⟩⟩

/-- Settles O16: the decoder and SOURCE select by the same tag. -/
theorem sourceRunsTheTaggedOperation : Obligations.SourceRunsTheTaggedOperation := by
  intro s i hd
  obtain ⟨u, hexec, hsourced⟩ := sourced_of_decodeWaveform hd
  exact ⟨u, hexec, execSource_of_sourced hsourced⟩

/-- Settles O2: a legal word is its operation's encoding, and an illegal one is past the last code of its format. -/
theorem specWordsDecodeToTheirOperations : Obligations.SpecWordsDecodeToTheirOperations :=
  ⟨decode_encode .reset, decode_encode .start, rfl, decode_encode .srcWhistle, decode_encode .srcBrownnoise, rfl,
    decode_encode .freq, decode_encode .storePeak, rfl, decode_encode (.rd64 0x010),
    decode_encode (.wr64 0x008 2)⟩

end Sys2Proof.Proofs.Encoding
end

section
/-!
SUPPORT. The command words, one equation per word and per side of the BUSY gate (R80 to R84), and the errors a step can
raise (R84, R86, R105).
-/

namespace Sys2Proof.Machine

section
variable {s t : State}

/-! ### The command words -/

theorem issueCommand_reset (s : State) : s.issueCommand 0x1 = s.resetBlock := by
  unfold State.issueCommand
  cases s.busy <;> rfl

/-- While BUSY every word but RESET is ignored (R80, R84). -/
theorem issueCommand_of_busy (hb : s.busy = true) {v : Word} (hv : v ≠ 0x1) : s.issueCommand v = s.flagIgnored := by
  rw [State.issueCommand, if_pos hb, if_neg hv]

theorem issueCommand_nop (hb : s.busy = false) : s.issueCommand 0x0 = s := by
  rw [State.issueCommand, hb]
  rfl

theorem issueCommand_start (hb : s.busy = false) : s.issueCommand 0x2 = s.startRender := by
  rw [State.issueCommand, hb]
  rfl

/-- An illegal word raises its error when not BUSY (R84). -/
theorem issueCommand_illegal (hb : s.busy = false) {v : Word} (h0 : v ≠ 0x0) (h1 : v ≠ 0x1) (h2 : v ≠ 0x2) :
    s.issueCommand v = s.raise .illegalCommand 0xFF := by
  rcases issueCommand_cases s v with ⟨hv, -⟩ | ⟨hb', -⟩ | ⟨-, hv, -⟩ | ⟨-, hv, -⟩ | ⟨-, -, -, -, heq⟩
  · exact absurd hv h1
  · exact absurd hb' (by simp [hb])
  · exact absurd hv h0
  · exact absurd hv h2
  · exact heq

/-- CMD lies in every aperture, and an 8-byte write to it is legal (R47, R51). -/
theorem execWr64_cmd (s : State) (v : Word) : exec (.wr64 0x008 v) s = .next (s.issueCommand v) :=
  inAperture_of_lt (lt_aperture_of_register (by decide))

/-! ### Where an error arises -/

/-- Of the stages only VALIDATE raises an error, INVALID_PARAMETER (R86, R105). -/
theorem EngineStep.error_cases (h : EngineStep s t) :
    t.error = s.error ∨ (s.stage.toNat = 1 ∧ t.errInfo.toNat % 2 ^ 8 = 2) := by
  cases h with
  | rejected hst hk =>
    refine .inr ⟨hst, ?_⟩
    rw [State.raise_errInfo, errInfoWord_toNat _ (validationError_lt hk), ErrorKind.code]
    omega
  | sourced _ hu =>
    obtain ⟨-, x, d, b, k, rfl⟩ := sourced_cases hu
    exact .inl rfl
  | stored =>
    rcases nextAfterStorePeak_cases s.storedPeak with ⟨-, heq⟩ | ⟨-, heq⟩ <;> rw [heq] <;> exact .inl rfl
  | scaled =>
    rcases nextAfterScale_cases { s with sb := storeEntry s.sb s.i.toNat s.scaledEntry } with ⟨-, heq⟩ | ⟨-, heq⟩ <;>
      rw [heq] <;> exact .inl rfl
  | _ => exact .inl rfl

/-- Of the transactions only an illegal command word raises an error, ILLEGAL_COMMAND (R84, R105). -/
theorem BusStep.error_cases {d : BitVec 2} {a : Nat} {v : Word} (h : BusStep s d a v t) :
    (t.error = true → s.error = true) ∨
      (s.busy = false ∧ t.errInfo = 0xFF03 ∧ (d = 0b11 ∧ a = 0x008) ∧ v ≠ 0x0 ∧ v ≠ 0x1 ∧ v ≠ 0x2) := by
  cases h with
  | command hd ha =>
    rcases issueCommand_cases s v with ⟨-, heq⟩ | ⟨-, -, heq⟩ | ⟨-, -, heq⟩ | ⟨-, -, heq⟩ | ⟨hb, h0, h1, h2, heq⟩ <;>
      rw [heq]
    · exact .inl fun hset => by cases hset
    · exact .inl id
    · exact .inl id
    · exact .inl fun hset => by cases hset
    · exact .inr ⟨hb, rfl, ⟨hd, ha⟩, h0, h1, h2⟩
  | _ => exact .inl id

end

end Sys2Proof.Machine
end

section
/-!
SUPPORT. VALIDATE, NORMALIZE and INIT: the table of R88 over the reals, the order of the checks (R87), and the sample
count as a ceiling (R90, R91).
-/

namespace Sys2Proof.Machine

/-! ### The table of legal values (R88) -/

section
variable {v : Word}

theorem ffinite_and_iff {b : Bool} {P : Prop} (h : ffinite v = true → (b = true ↔ P)) :
    (ffinite v && b) = true ↔ ffinite v = true ∧ P := by
  rw [Bool.and_eq_true]
  exact and_congr_right h

theorem flt_fzero_iff (hv : ffinite v = true) : flt fzero v = true ↔ 0 < f64Value v := by
  rw [flt_iff ffinite_fzero hv, f64Value_fzero]

/-- Both zeros pass (R88). -/
theorem fle_fzero_iff (hv : ffinite v = true) : fle fzero v = true ↔ 0 ≤ f64Value v := by
  rw [fle_iff ffinite_fzero hv, f64Value_fzero]

theorem fle_freal_iff {n : Nat} (hn : n ≤ 2 ^ 53) (hv : ffinite v = true) :
    fle v (freal n) = true ↔ f64Value v ≤ n := by
  obtain ⟨hfin, hval⟩ := freal_small hn
  rw [fle_iff hv hfin, hval]

theorem legal_positive_iff : (ffinite v && flt fzero v) = true ↔ ffinite v = true ∧ 0 < f64Value v :=
  ffinite_and_iff flt_fzero_iff

theorem legal_nonneg_iff : (ffinite v && fle fzero v) = true ↔ ffinite v = true ∧ 0 ≤ f64Value v :=
  ffinite_and_iff fle_fzero_iff

theorem legal_upTo_iff {n : Nat} (hn : n ≤ 2 ^ 53) :
    (ffinite v && fle fzero v && fle v (freal n)) = true ↔
      ffinite v = true ∧ 0 ≤ f64Value v ∧ f64Value v ≤ n := by
  rw [Bool.and_assoc]
  exact ffinite_and_iff fun hv => by rw [Bool.and_eq_true, fle_fzero_iff hv, fle_freal_iff hn hv]

end

/-! ### The order of the checks (R86, R87) -/

section
variable {s : State}

theorem State.param_eq (s : State) (k : Fin 28) : s.param k = s.p[k] := by
  simp [State.param]

theorem firstIllegal_eq_find? (s : State) (l : List Nat) :
    s.firstIllegal l = l.find? fun k => !legalParam s.inst.maxHarmonics k (s.param k) := by
  induction l with
  | nil => rfl
  | cons k l ih => cases h : legalParam s.inst.maxHarmonics k (s.param k) <;> simp [State.firstIllegal, h, ih]

/-- The lowest illegal index is the one VALIDATE reports (R87). -/
theorem validationError_of_illegal (k : Fin 28) (hk : legalParam s.inst.maxHarmonics k s.p[k] = false)
    (hlow : ∀ j : Fin 28, j < k → legalParam s.inst.maxHarmonics j s.p[j] = true) :
    s.validationError = some k.val := by
  have hfirst : s.firstIllegal (List.range 28) = some k.val := by
    rw [firstIllegal_eq_find?, List.find?_range_eq_some]
    refine ⟨by rw [State.param_eq, hk]; rfl, List.mem_range.2 k.isLt, fun j hj => ?_⟩
    have hlegal := hlow ⟨j, hj.trans k.isLt⟩ hj
    rw [← State.param_eq] at hlegal
    simp [hlegal]
  rw [State.validationError, hfirst]

/-- With every parameter legal the harmonic sum is checked next, and the sample count last (R87). -/
theorem validationError_of_legal (h : ∀ k : Fin 28, legalParam s.inst.maxHarmonics k s.p[k] = true) :
    s.validationError = if s.badHarmonicSum then some 17 else if s.badCount then some 0xFE else none := by
  have hfirst : s.firstIllegal (List.range 28) = none := by
    rw [firstIllegal_eq_find?, List.find?_eq_none]
    intro k hk
    have hlegal := h ⟨k, List.mem_range.1 hk⟩
    rw [← State.param_eq] at hlegal
    simp [hlegal]
  rw [State.validationError, hfirst]

theorem badHarmonicSum_iff :
    s.badHarmonicSum = true ↔
      s.p[18].toNat ≤ 6 ∧
        (feq (harmonicSum s.p[16].toNat s.p[17]) 0 = true ∨ ffinite (harmonicSum s.p[16].toNat s.p[17]) = false) := by
  simp only [State.badHarmonicSum, State.isOscillator, Bool.and_eq_true, decide_eq_true_eq, Bool.or_eq_true,
    Bool.not_eq_true']
  exact Iff.rfl

theorem badCount_iff :
    s.badCount = true ↔
      ffinite s.rawCount = false ∨ flt (freal s.inst.maxSamples) (fmax (freal 1) s.rawCount) = true := by
  simp only [State.badCount, Bool.or_eq_true, Bool.not_eq_true']

theorem execValidate_of_none (h : s.validationError = none) : exec .validate s = .next { s with stage := 0x2 } := by
  change execValidate s = _
  rw [execValidate, h]
  rfl

/-- The one trap entry writes CODE 2 below the PARAM byte (R159). -/
theorem execValidate_of_some {k : Nat} (h : s.validationError = some k) :
    exec .validate s = .next
      { s with
        errInfo := BitVec.ofNat 64 (k * 256 + 2), error := true, done := false, busy := false, stage := 0x0 } := by
  have hcode : ErrorKind.code .invalidParameter < 2 ^ 8 := by decide
  have hinfo : errInfoWord .invalidParameter k = BitVec.ofNat 64 (k * 256 + 2) := by
    rw [errInfoWord, ← Nat.shiftLeft_add_eq_or_of_lt hcode, Nat.shiftLeft_eq]
    rfl
  change execValidate s = _
  rw [execValidate, h, ← hinfo]
  rfl

/-! ### The sample count (R90, R91) -/

theorem ffinite_of_fceil {x : F64} (h : ffinite (fceil x) = true) : ffinite x = true := by
  by_contra hx
  rw [fceil_of_not_finite (by simpa using hx)] at h
  cases h

theorem f64Value_fmax {a b : F64} (ha : ffinite a = true) (hb : ffinite b = true) :
    ffinite (fmax a b) = true ∧ f64Value (fmax a b) = max (f64Value a) (f64Value b) := by
  unfold fmax
  split
  · next h => exact ⟨hb, (max_eq_right ((flt_iff ha hb).1 h).le).symm⟩
  · next h => exact ⟨ha, (max_eq_left (not_lt.1 (mt (flt_iff ha hb).2 h))).symm⟩

/-- The duration in samples before the ceiling (R90). -/
def State.countProduct (s : State) : F64 :=
  fmul s.pSampleRate (fadd (fadd s.pAttack s.pSustain) s.pDecay)

theorem State.rawCount_eq (s : State) : s.rawCount = fceil s.countProduct := rfl

theorem maxSamples_le_of_legal (h : s.inst.legal = true) : s.inst.maxSamples ≤ 2 ^ 32 := by
  simp only [Config.Params.legal, Bool.and_eq_true, decide_eq_true_eq] at h
  obtain ⟨⟨⟨-, hmax⟩, -⟩, -⟩ := h
  exact hmax

/-- The count of a set that passes R90's check is the ceiling of the rounded product, raised to 1 (R91). -/
theorem State.count_eq_ceil (hlegal : s.inst.legal = true) (h : s.badCount = false) :
    (s.count.toNat : ℤ) = max 1 ⌈f64Value s.countProduct⌉ := by
  have hsmall := maxSamples_le_of_legal hlegal
  obtain ⟨hraw, hfits⟩ : ffinite s.rawCount = true ∧
      flt (freal s.inst.maxSamples) (fmax (freal 1) s.rawCount) = false := by simpa [State.badCount] using h
  obtain ⟨hfin, hval⟩ := f64Value_fmax ffinite_one hraw
  obtain ⟨hmaxfin, hmaxval⟩ := freal_small (n := s.inst.maxSamples) (by omega)
  have hceil : f64Value (fmax (freal 1) s.rawCount) = (max 1 ⌈f64Value s.countProduct⌉ : ℤ) := by
    rw [State.rawCount_eq] at hraw
    rw [hval, f64Value_one, State.rawCount_eq, (fceil_exact (ffinite_of_fceil hraw)).2.1]
    push_cast
    rfl
  rw [← Bool.not_eq_true, flt_iff hmaxfin hfin, hmaxval, not_lt, hceil] at hfits
  obtain ⟨n, hn⟩ := Int.eq_ofNat_of_zero_le (zero_le_one.trans (le_max_left 1 ⌈f64Value s.countProduct⌉))
  rw [hn] at hceil hfits ⊢
  have hle : n ≤ s.inst.maxSamples := by exact_mod_cast hfits
  rw [State.count, fint_toNat hfin hceil (by omega)]

/-! ### INIT (R94, R95) -/

theorem firstStage_eq (o : Config.PhaseOrder) : firstStage o = if o = .sourceThenAdvance then 0x4 else 0x5 := by
  cases o <;> rfl

/-- S.A0 as INIT computes it (R94). -/
def State.initialAmplitude (s : State) : F64 :=
  if s.p[18].toNat ≤ 6 then fdiv (freal 1) (harmonicSum s.p[16].toNat s.p[17]) else 0

theorem State.initialAmplitude_eq (s : State) :
    s.initialAmplitude = if s.isOscillator then fdiv (freal 1) s.harmonicDenominator else fzero := by
  simp only [State.initialAmplitude, State.isOscillator, decide_eq_true_eq]
  rfl

end

end Sys2Proof.Machine
end

section
/-!
SUPPORT. SCALE (R96, R97, R153, R154), runs of the engine alone, and pass 2 as a whole (R99, R157).
-/

namespace Sys2Proof.Machine

section
variable {s t u : State}

/-! ### Runs -/

theorem runSteps_succ (h : step s = .next t) (n : Nat) : runSteps (n + 1) s = runSteps n t := by
  rw [runSteps, h]

theorem runSteps_one (h : step s = .next t) : runSteps 1 s = .next t := runSteps_succ h 0

/-- A run that answers a next state took its first step to one. -/
theorem runSteps_succ_next {n : Nat} (h : runSteps (n + 1) s = .next t) :
    ∃ v, step s = .next v ∧ runSteps n v = .next t := by
  rw [runSteps] at h
  split at h
  · next v hv => exact ⟨v, hv, h⟩
  · cases h
  · cases h

theorem runSteps_add {m : Nat} (n : Nat) (h : runSteps m s = .next t) : runSteps (m + n) s = runSteps n t := by
  induction m generalizing s with
  | zero =>
    cases h
    rw [Nat.zero_add]
  | succ m ih =>
    obtain ⟨v, hv, hrun⟩ := runSteps_succ_next h
    rw [Nat.add_right_comm, runSteps_succ hv]
    exact ih hrun

theorem takeTurn_of_nil (ha : s.agenda = []) : s.takeTurn = s := by
  rw [State.takeTurn, ha, List.tail_nil, ← ha]

theorem engineTurn_of_nil (ha : s.agenda = []) : s.engineTurn := fun r l hl => by simp [ha] at hl

/-- With no host turn to come every turn is the engine's, and taking it changes nothing (log entry 2). -/
theorem step_of_nil {i : Instr} (ha : s.agenda = []) (hd : decodeStage s.stage = .ok i) : step s = exec i s := by
  rw [step_of_engineTurn (engineTurn_of_nil ha) hd, takeTurn_of_nil ha]

theorem exec_of_step (ha : s.agenda = []) (h : step s = .next t) :
    ∃ i, decodeStage s.stage = .ok i ∧ exec i s = .next t := by
  obtain ⟨i, hd, hexec⟩ := engine_step_cases (State.fetch_of_engineTurn (engineTurn_of_nil ha)) h
  rw [takeTurn_of_nil ha] at hexec
  exact ⟨i, hd, hexec⟩

/-! ### SCALE -/

/-- Factor() (R153). -/
theorem State.factor_eq (s : State) :
    s.factor =
      if s.p[26] = 1 ∧ feq s.maxSample 0 = false then fdiv (fdiv s.p[27] (freal 100)) s.maxSample
      else fdiv s.p[27] (freal 100) := by
  simp only [State.factor, Bool.and_eq_true, decide_eq_true_eq, Bool.not_eq_true']
  rfl

/-- SB[j] as SCALE leaves it, by the factor of the state (R154). -/
def State.scaledWord (s : State) (j : Nat) : F32 := f32OfF64 (fmul (f64OfF32 (loadEntry s.sb j)) s.factor)

theorem State.scaledEntry_eq (s : State) : s.scaledEntry = s.scaledWord s.i.toNat := rfl

/-- The buffer after SCALE. -/
def State.scaledBuffer (s : State) : Memory := storeEntry s.sb s.i.toNat s.scaledEntry

theorem load_scaledBuffer_same (hwf : Memory.wf s.sb = true) :
    loadEntry s.scaledBuffer s.i.toNat = s.scaledWord s.i.toNat :=
  (load_storeEntry_same hwf).trans s.scaledEntry_eq

/-- SCALE before the last entry of the render (R96). -/
theorem execScale_of_more (hi : s.i.toNat < s.inst.maxSamples) (hmore : s.i.toNat + 1 < s.numSamples.toNat) :
    exec .scale s = .next { s with sb := s.scaledBuffer, i := s.i + 1, stage := stScale } := by
  refine (atEntry_of_lt hi).trans (congrArg _ ?_)
  rcases nextAfterScale_cases { s with sb := s.scaledBuffer } with ⟨-, heq⟩ | ⟨hlast, -⟩
  · exact heq
  · exact absurd hmore (Nat.not_lt.2 hlast)

/-- SCALE of the last entry ends the render (R97). -/
theorem execScale_of_last (hi : s.i.toNat < s.inst.maxSamples) (hlast : s.numSamples.toNat ≤ s.i.toNat + 1) :
    exec .scale s = .next ({ s with sb := s.scaledBuffer } : State).endOfRender := by
  refine (atEntry_of_lt hi).trans (congrArg _ ?_)
  rcases nextAfterScale_cases { s with sb := s.scaledBuffer } with ⟨hmore, -⟩ | ⟨-, heq⟩
  · exact absurd hmore (Nat.not_lt.2 hlast)
  · exact heq

/-! ### Pass 2 -/

/-- An entry is read from its four bytes alone (R48). -/
theorem loadEntry_congr {m m' : Memory} {j : Nat}
    (h : ∀ a, entryAddr j ≤ a → a < entryAddr j + 4 → m'.read a = m.read a) : loadEntry m' j = loadEntry m j := by
  unfold loadEntry
  rw [h _ (by omega) (by omega), h _ (by omega) (by omega), h _ (by omega) (by omega), h _ (by omega) (by omega)]

/-- `t` is the end of a pass 2 that `s` is in: each entry from S.i on is scaled once, and nothing else is changed. -/
structure PassTwoEnd (s t : State) : Prop where
  scaled : ∀ j, s.i.toNat ≤ j → j < s.numSamples.toNat → loadEntry t.sb j = s.scaledWord j
  others : ∀ a, a < entryAddr s.i.toNat ∨ entryAddr s.numSamples.toNat ≤ a → t.sb.read a = s.sb.read a
  frame : t = { s with sb := t.sb, i := t.i, stage := stIdle, busy := false, done := true,
                       renderCycles := Config.renderCyclesFn s.renders }
  last : t.i.toNat + 1 = s.numSamples.toNat

theorem passTwoEnd_of_last (hwf : Memory.wf s.sb = true) (hlast : s.i.toNat + 1 = s.numSamples.toNat) :
    PassTwoEnd s ({ s with sb := s.scaledBuffer } : State).endOfRender where
  scaled j hlo hhi := by
    obtain rfl : j = s.i.toNat := by omega
    exact load_scaledBuffer_same hwf
  others a ha := by
    rw [← hlast] at ha
    exact storeEntry_read_other hwf (by simp only [entryAddr] at ha ⊢; omega)
  frame := rfl
  last := hlast

/-- SCALE of one entry, and then a pass 2 from the next: the later stores leave the entry as it is. -/
theorem passTwoEnd_of_more (hwf : Memory.wf s.sb = true) (hmore : s.i.toNat + 1 < s.numSamples.toNat)
    (h : PassTwoEnd { s with sb := s.scaledBuffer, i := s.i + 1, stage := stScale } t) : PassTwoEnd s t := by
  have hi := index_succ_toNat hmore
  obtain ⟨hscaled, hothers, hframe, hlast⟩ := h
  simp only [hi] at hscaled hothers
  refine ⟨fun j hlo hhi => ?_, fun a ha => ?_, hframe, hlast⟩
  · rcases hlo.eq_or_lt with rfl | hlt
    · rw [loadEntry_congr fun a _ ha => hothers a (.inl (by simp only [entryAddr] at ha ⊢; omega))]
      exact load_scaledBuffer_same hwf
    · rw [hscaled j hlt hhi]
      exact congrArg (fun w => f32OfF64 (fmul (f64OfF32 w) s.factor)) (load_storeEntry_other hwf hlt.ne')
  · rw [hothers a (by simp only [entryAddr] at ha ⊢; omega)]
    exact storeEntry_read_other hwf (by simp only [entryAddr] at ha ⊢; omega)

/-- Pass 2 from its entry S.i, with `n` entries still to come after it (R99, R157). -/
theorem runSteps_passTwo (n : Nat) (hwf : Memory.wf s.sb = true) (ha : s.agenda = []) (hst : s.stage = stScale)
    (hn : s.i.toNat + 1 + n = s.numSamples.toNat) (hfits : s.numSamples.toNat ≤ s.inst.maxSamples) :
    ∃ t, runSteps (n + 1) s = .next t ∧ PassTwoEnd s t := by
  have hstep : step s = exec .scale s := step_of_nil ha (by rw [hst]; rfl)
  induction n generalizing s with
  | zero =>
    rw [execScale_of_last (by omega) (by omega)] at hstep
    exact ⟨_, runSteps_one hstep, passTwoEnd_of_last hwf hn⟩
  | succ n ih =>
    have hmore : s.i.toNat + 1 < s.numSamples.toNat := by omega
    rw [execScale_of_more (by omega) hmore] at hstep
    obtain ⟨t, hrun, hend⟩ :=
      ih (s := { s with sb := s.scaledBuffer, i := s.i + 1, stage := stScale }) (storeEntry_wf hwf) ha rfl
        (by simp only [index_succ_toNat hmore]; omega) hfits (step_of_nil ha rfl)
    exact ⟨t, (runSteps_succ hstep _).trans hrun, passTwoEnd_of_more hwf hmore hend⟩

end

end Sys2Proof.Machine
end

section
/-!
SUPPORT. How long a render takes (R95, R96, R104): each engine step of a render that passes validation takes one from
the number of steps left, and the last step ends it.
-/

namespace Sys2Proof.Machine

/-! ### The steps left -/

/-- The steps left in a sample of pass 1, this stage's among them: eight from FirstStage on (R95). -/
def sampleSteps (o : Config.PhaseOrder) (st : Nat) : Nat :=
  if st = (firstStage o).toNat then 8 else if st ≤ 5 then 7 else 12 - st

/-- The steps left in a render of `n` samples, at stage code `st` and index `i`. -/
def stepsFrom (o : Config.PhaseOrder) (n st i : Nat) : Nat :=
  if st = 0 then 0
  else if st ≤ 3 then 4 - st + 9 * n
  else if st ≤ 11 then sampleSteps o st + 8 * (n - (i + 1)) + n
  else n - i

section
variable {o : Config.PhaseOrder} {n st i : Nat}

theorem sampleSteps_firstStage (o : Config.PhaseOrder) : sampleSteps o (firstStage o).toNat = 8 := if_pos rfl

theorem sampleSteps_source (o : Config.PhaseOrder) : sampleSteps o 4 = sampleSteps o (afterSource o).toNat + 1 := by
  cases o <;> rfl

theorem sampleSteps_freq (o : Config.PhaseOrder) : sampleSteps o 5 = sampleSteps o (afterFreq o).toNat + 1 := by
  cases o <;> rfl

theorem sampleSteps_of_ge (h : 6 ≤ st) : sampleSteps o st = 12 - st := by
  obtain ⟨-, hfirst⟩ := firstStage_range o
  rw [sampleSteps, if_neg (by omega), if_neg (by omega)]

theorem stepsFrom_setup (h1 : 1 ≤ st) (h3 : st ≤ 3) : stepsFrom o n st i = 4 - st + 9 * n := by
  rw [stepsFrom, if_neg (by omega), if_pos h3]

theorem stepsFrom_setup_succ (h1 : 1 ≤ st) (h2 : st ≤ 2) (j : Nat) :
    stepsFrom o n st i = stepsFrom o n (st + 1) j + 1 := by
  rw [stepsFrom_setup h1 (by omega), stepsFrom_setup (by omega) (by omega)]
  omega

theorem stepsFrom_passOne (h4 : 4 ≤ st) (h11 : st ≤ 11) :
    stepsFrom o n st i = sampleSteps o st + 8 * (n - (i + 1)) + n := by
  rw [stepsFrom, if_neg (by omega), if_neg (by omega), if_pos h11]

theorem stepsFrom_passTwo (o : Config.PhaseOrder) (n i : Nat) : stepsFrom o n 12 i = n - i := rfl

/-- Within a sample a stage that takes one from the sample's steps takes one from the render's. -/
theorem stepsFrom_sample {st' : Nat} (h : 4 ≤ st ∧ st ≤ 11) (h' : 4 ≤ st' ∧ st' ≤ 11)
    (hsteps : sampleSteps o st = sampleSteps o st' + 1) : stepsFrom o n st i = stepsFrom o n st' i + 1 := by
  rw [stepsFrom_passOne h.1 h.2, stepsFrom_passOne h'.1 h'.2, hsteps]
  omega

/-- At FirstStage all eight steps of the sample are to come. -/
theorem stepsFrom_firstStage (o : Config.PhaseOrder) (n i : Nat) :
    stepsFrom o n (firstStage o).toNat i = 8 + 8 * (n - (i + 1)) + n := by
  obtain ⟨hlo, hhi⟩ := firstStage_range o
  rw [stepsFrom_passOne hlo (by omega), sampleSteps_firstStage]

theorem stepsFrom_storePeak (o : Config.PhaseOrder) (n i : Nat) : stepsFrom o n 11 i = 1 + 8 * (n - (i + 1)) + n := by
  rw [stepsFrom_passOne (by omega) (by omega), sampleSteps_of_ge (by omega)]

end

/-! ### A running render -/

/-- A render that START accepted, whose set is valid, and whose remaining steps are all the engine's. -/
structure State.Rendering (s : State) : Prop where
  legal : s.inst.legal = true
  valid : s.validationError = none
  agenda : s.agenda = []
  busy : s.busy = true
  stage_lo : 1 ≤ s.stage.toNat
  stage_hi : s.stage.toNat ≤ 12
  samples : 3 ≤ s.stage.toNat → s.numSamples = s.count
  index : 4 ≤ s.stage.toNat → s.i.toNat < s.count.toNat

/-- The steps a running render has left. -/
def State.stepsLeft (s : State) : Nat := stepsFrom s.inst.phaseOrder s.count.toNat s.stage.toNat s.i.toNat

/-- `t` is the end of the render that `s` runs (R97). -/
structure RenderEnd (s t : State) : Prop where
  busy : t.busy = false
  done : t.done = true
  stage : t.stage = stIdle
  samples : t.numSamples = s.count
  index : t.i.toNat + 1 = s.count.toNat
  parameters : t.p = s.p

section
variable {s t u : State}

/-- The same parameters have the same end. -/
theorem RenderEnd.of_parameters (h : RenderEnd u t) (hp : u.p = s.p) : RenderEnd s t := by
  obtain ⟨hcount, -, -⟩ := results_congr hp
  obtain ⟨hbusy, hdone, hstage, hsamples, hindex, hparameters⟩ := h
  rw [hcount] at hsamples hindex
  exact ⟨hbusy, hdone, hstage, hsamples, hindex, hparameters.trans hp⟩

theorem State.renderPending.rendering (h : s.renderPending) (hlegal : s.inst.legal = true)
    (hvalid : s.validationError = none) : s.Rendering := by
  obtain ⟨hbusy, hstage, hagenda⟩ := h
  have hst : s.stage.toNat = 1 := by rw [hstage]; rfl
  exact ⟨hlegal, hvalid, hagenda, hbusy, by omega, by omega, fun h3 => by omega, fun h4 => by omega⟩

theorem State.renderPending.stepsLeft (h : s.renderPending) : s.stepsLeft = 3 + 9 * s.count.toNat := by
  obtain ⟨-, hstage, -⟩ := h
  rw [State.stepsLeft, hstage]
  rfl

theorem State.Rendering.count_range (h : s.Rendering) :
    1 ≤ s.count.toNat ∧ s.count.toNat ≤ s.inst.maxSamples :=
  State.count_range h.legal (badCount_of_valid h.valid)

/-- No stage of a valid render stops (R55, R100). -/
theorem State.Rendering.step_next (h : s.Rendering) : ∃ t, step s = .next t ∧ EngineStep s t := by
  obtain ⟨i, hd⟩ := decodeStage_of_le h.stage_hi
  have hexec : ∃ t, exec i s = .next t := by
    obtain ⟨-, hfits⟩ := h.count_range
    have hdecoded := hd
    unfold decodeStage at hdecoded
    split at hdecoded <;> cases hdecoded
    case h_2 => exact execValidate_next s
    case h_5 => exact execSource_next (pWaveform_le_of_valid h.valid)
    case h_12 hst | h_13 hst => exact ⟨_, atEntry_of_lt ((h.index (by omega)).trans_le hfits)⟩
    all_goals exact ⟨_, rfl⟩
  obtain ⟨t, ht⟩ := hexec
  exact ⟨t, (step_of_nil h.agenda hd).trans ht, engineStep_of_exec hd ht⟩

/-- What a step has to leave for the render to go on at stage code `st` and index `i`. -/
theorem State.Rendering.goes_on (h : s.Rendering) {st i : Nat}
    (hframe : t.inst = s.inst ∧ t.p = s.p ∧ t.agenda = s.agenda ∧ t.busy = s.busy)
    (hst : t.stage.toNat = st) (hi : t.i.toNat = i) (hlo : 1 ≤ st) (hhi : st ≤ 12)
    (hsamples : 3 ≤ st → t.numSamples = s.count) (hindex : 4 ≤ st → i < s.count.toNat)
    (hsteps : s.stepsLeft = stepsFrom s.inst.phaseOrder s.count.toNat st i + 1) :
    s.stepsLeft = t.stepsLeft + 1 ∧ (t.Rendering ∨ RenderEnd s t) := by
  obtain ⟨hinst, hp, hagenda, hbusy⟩ := hframe
  obtain ⟨hcount, -, -⟩ := results_congr hp
  subst hst hi
  refine ⟨by rw [hsteps, State.stepsLeft, hinst, hcount], .inl ?_⟩
  exact
    { legal := by rw [hinst]; exact h.legal
      valid := (validationError_congr hinst hp).trans h.valid
      agenda := hagenda.trans h.agenda
      busy := hbusy.trans h.busy
      stage_lo := hlo
      stage_hi := hhi
      samples := by rwa [hcount]
      index := by rwa [hcount] }

/-- Within a sample of pass 1 the index stays. -/
theorem State.Rendering.sample_goes_on (h : s.Rendering) {st : Nat}
    (hframe : t.inst = s.inst ∧ t.p = s.p ∧ t.agenda = s.agenda ∧ t.busy = s.busy)
    (hnum : t.numSamples = s.numSamples) (hi : t.i = s.i) (hs : 4 ≤ s.stage.toNat ∧ s.stage.toNat ≤ 11)
    (hst : t.stage.toNat = st) (ht : 4 ≤ st ∧ st ≤ 11)
    (hsteps : sampleSteps s.inst.phaseOrder s.stage.toNat = sampleSteps s.inst.phaseOrder st + 1) :
    s.stepsLeft = t.stepsLeft + 1 ∧ (t.Rendering ∨ RenderEnd s t) :=
  h.goes_on hframe hst (congrArg _ hi) (by omega) (by omega) (fun _ => hnum.trans (h.samples (by omega)))
    (fun _ => h.index (by omega)) (stepsFrom_sample hs ht hsteps)

/-- STORE_PEAK goes to the next sample, or from the last to the first entry of pass 2 (R96). -/
theorem State.Rendering.stored (h : s.Rendering) (hst : s.stage.toNat = 11) :
    s.stepsLeft = s.storedPeak.nextAfterStorePeak.stepsLeft + 1 ∧
      (s.storedPeak.nextAfterStorePeak.Rendering ∨ RenderEnd s s.storedPeak.nextAfterStorePeak) := by
  have hsamples := h.samples (by omega)
  have hindex := h.index (by omega)
  have hcount : s.storedPeak.numSamples.toNat = s.count.toNat := congrArg _ hsamples
  have hfirst := firstStage_range s.inst.phaseOrder
  have hleft : s.stepsLeft = 1 + 8 * (s.count.toNat - (s.i.toNat + 1)) + s.count.toNat := by
    rw [State.stepsLeft, hst, stepsFrom_storePeak]
  rcases nextAfterStorePeak_cases s.storedPeak with ⟨hmore, heq⟩ | ⟨hlast, heq⟩ <;> rw [heq]
  · have hmore' : s.i.toNat + 1 < s.count.toNat := hcount ▸ hmore
    refine h.goes_on ⟨rfl, rfl, rfl, rfl⟩ (st := (firstStage s.inst.phaseOrder).toNat) (i := s.i.toNat + 1) rfl
      (index_succ_toNat hmore) (by omega) (by omega) (fun _ => hsamples) (fun _ => hmore') ?_
    rw [hleft, stepsFrom_firstStage]
    omega
  · have hlast' : s.count.toNat ≤ s.i.toNat + 1 := hcount ▸ hlast
    refine h.goes_on ⟨rfl, rfl, rfl, rfl⟩ (st := 12) (i := 0) rfl rfl (by omega) (by omega) (fun _ => hsamples)
      (fun _ => by omega) ?_
    rw [hleft, stepsFrom_passTwo]
    omega

/-- SCALE goes to the next entry, or from the last to the end of the render (R96, R97). -/
theorem State.Rendering.scaled (h : s.Rendering) (hst : s.stage.toNat = 12) (m : Memory) :
    s.stepsLeft = ({ s with sb := m } : State).nextAfterScale.stepsLeft + 1 ∧
      (({ s with sb := m } : State).nextAfterScale.Rendering ∨
        RenderEnd s ({ s with sb := m } : State).nextAfterScale) := by
  have hsamples := h.samples (by omega)
  have hindex := h.index (by omega)
  have hcount : s.numSamples.toNat = s.count.toNat := congrArg _ hsamples
  have hleft : s.stepsLeft = s.count.toNat - s.i.toNat := by rw [State.stepsLeft, hst, stepsFrom_passTwo]
  rcases nextAfterScale_cases { s with sb := m } with ⟨hmore, heq⟩ | ⟨hlast, heq⟩ <;> rw [heq]
  · have hmore' : s.i.toNat + 1 < s.count.toNat := hcount ▸ hmore
    refine h.goes_on ⟨rfl, rfl, rfl, rfl⟩ (st := 12) (i := s.i.toNat + 1) rfl (index_succ_toNat hmore) (by omega)
      (by omega) (fun _ => hsamples) (fun _ => hmore') ?_
    rw [hleft, stepsFrom_passTwo]
    omega
  · have hlast' : s.count.toNat = s.i.toNat + 1 := by
      simp only [hcount] at hlast
      omega
    have hend : ({ s with sb := m } : State).endOfRender.stepsLeft = 0 := rfl
    exact ⟨by omega, .inr ⟨rfl, rfl, rfl, hsamples, hlast'.symm, rfl⟩⟩

/-- Each step of a running render takes one from the steps left, and the render goes on or has ended (R96, R104). -/
theorem State.Rendering.engineStep (h : s.Rendering) (hstep : EngineStep s t) :
    s.stepsLeft = t.stepsLeft + 1 ∧ (t.Rendering ∨ RenderEnd s t) := by
  obtain ⟨hpos, -⟩ := h.count_range
  cases hstep with
  | idle hst => exact absurd h.stage_lo (by omega)
  | rejected hst hk => exact absurd (hk.symm.trans h.valid) (by simp)
  | accepted hst =>
    exact h.goes_on ⟨rfl, rfl, rfl, rfl⟩ (st := 2) rfl rfl (by omega) (by omega) (by omega) (by omega)
      (by rw [State.stepsLeft, hst, stepsFrom_setup_succ (by omega) (by omega)])
  | normalized hst =>
    exact h.goes_on ⟨rfl, rfl, rfl, rfl⟩ (st := 3) rfl rfl (by omega) (by omega) (fun _ => rfl) (by omega)
      (by rw [State.stepsLeft, hst, stepsFrom_setup_succ (by omega) (by omega)])
  | cleared hst a =>
    have hfirst := firstStage_range s.inst.phaseOrder
    refine h.goes_on ⟨rfl, rfl, rfl, rfl⟩ (st := (firstStage s.inst.phaseOrder).toNat) (i := 0) rfl rfl (by omega)
      (by omega) (fun _ => h.samples (by omega)) (fun _ => hpos) ?_
    rw [State.stepsLeft, hst, stepsFrom_setup (by omega) (by omega), stepsFrom_firstStage]
    omega
  | sourced hst hu =>
    obtain ⟨-, x, d, b, k, rfl⟩ := sourced_cases hu
    have hafter := afterSource_range s.inst.phaseOrder
    exact h.sample_goes_on ⟨rfl, rfl, rfl, rfl⟩ (st := (afterSource s.inst.phaseOrder).toNat) rfl rfl (by omega) rfl
      (by omega) (by rw [hst, sampleSteps_source])
  | advanced hst f x =>
    have hafter := afterFreq_range s.inst.phaseOrder
    exact h.sample_goes_on ⟨rfl, rfl, rfl, rfl⟩ (st := (afterFreq s.inst.phaseOrder).toNat) rfl rfl (by omega) rfl
      (by omega) (by rw [hst, sampleSteps_freq])
  | shaped hlo hhi hst x y u v =>
    refine h.sample_goes_on ⟨rfl, rfl, rfl, rfl⟩ rfl rfl (by omega) hst (by omega) ?_
    rw [sampleSteps_of_ge hlo, sampleSteps_of_ge (by omega)]
    omega
  | stored hst => exact h.stored hst
  | scaled hst => exact h.scaled hst _

/-- A running render is BUSY before each of the steps it has left, and ends after the last (R104). -/
theorem State.Rendering.run {n : Nat} (h : s.Rendering) (hn : s.stepsLeft = n) :
    (∀ m, m < n → ∃ u, runSteps m s = .next u ∧ u.busy = true) ∧ ∃ t, runSteps n s = .next t ∧ RenderEnd s t := by
  induction n generalizing s with
  | zero =>
    obtain ⟨t, -, he⟩ := h.step_next
    have hsteps := (h.engineStep he).1
    omega
  | succ n ih =>
    obtain ⟨t, hstep, he⟩ := h.step_next
    obtain ⟨hsteps, hnext⟩ := h.engineStep he
    rcases hnext with hgoes | hend
    · obtain ⟨hbusy, u, hrun, hend⟩ := ih hgoes (by omega)
      refine ⟨fun m hm => ?_, u, (runSteps_succ hstep n).trans hrun, hend.of_parameters he.frame.2.1⟩
      cases m with
      | zero => exact ⟨s, rfl, h.busy⟩
      | succ m =>
        obtain ⟨v, hv, hvbusy⟩ := hbusy m (by omega)
        exact ⟨v, (runSteps_succ hstep m).trans hv, hvbusy⟩
    · have hleft : t.stepsLeft = 0 := by rw [State.stepsLeft, hend.stage]; rfl
      obtain rfl : n = 0 := by omega
      refine ⟨fun m hm => ?_, t, runSteps_one hstep, hend⟩
      obtain rfl : m = 0 := by omega
      exact ⟨s, rfl, h.busy⟩

end

end Sys2Proof.Machine
end

section
/-!
SUPPORT. Two renders of one parameter set (R94, R98, R103): from INIT on the render of a state does not depend on its
leftovers, which are what no stage of pass 1 or pass 2 reads before it has written it.
-/

namespace Sys2Proof.Machine

/-! ### The leftovers -/

/-- `s`, with the flags, the buffer and the host's side that `u` has. -/
def State.withLeftovers (s u : State) : State :=
  { s with
    done := u.done, error := u.error, accessErr := u.accessErr, ignored := u.ignored, errInfo := u.errInfo
    renderCycles := u.renderCycles, sb := u.sb, hostData := u.hostData, renders := u.renders }

/-- How many entries the render has written so far. -/
def State.entriesWritten (s : State) : Nat :=
  if 4 ≤ s.stage.toNat ∧ s.stage.toNat ≤ 11 then s.i.toNat else s.numSamples.toNat

/-- `s` is past INIT, no host turn is to come, and `u` has the entries that the render of `s` has written. -/
structure SharesEntries (s u : State) : Prop where
  agenda : s.agenda = []
  stage : s.stage.toNat = 0 ∨ 4 ≤ s.stage.toNat
  wf : Memory.wf s.sb = true
  wf' : Memory.wf u.sb = true
  entries : ∀ j, j < s.entriesWritten → loadEntry u.sb j = loadEntry s.sb j

section
variable {s s' u : State}

theorem entriesWritten_passOne (h : 4 ≤ s.stage.toNat ∧ s.stage.toNat ≤ 11) : s.entriesWritten = s.i.toNat := if_pos h

theorem entriesWritten_passTwo (h : s.stage.toNat = 0 ∨ s.stage.toNat = 12) :
    s.entriesWritten = s.numSamples.toNat := if_neg (by omega)

/-- Entry j of two buffers after the same store to both. -/
theorem load_storeEntry_congr {m m' : Memory} {i j : Nat} {w w' : F32} (hwf : Memory.wf m = true)
    (hwf' : Memory.wf m' = true) (hother : j ≠ i → loadEntry m' j = loadEntry m j) (hword : j = i → w' = w) :
    loadEntry (storeEntry m' i w') j = loadEntry (storeEntry m i w) j := by
  by_cases hj : j = i
  · subst hj
    rw [load_storeEntry_same hwf, load_storeEntry_same hwf', hword rfl]
  · rw [load_storeEntry_other hwf hj, load_storeEntry_other hwf' hj, hother hj]

/-! ### The stages -/

theorem sourced_withLeftovers (s u : State) :
    (s.withLeftovers u).sourced = s.sourced.map (State.withLeftovers · u) := by
  unfold State.sourced
  have hw : (s.withLeftovers u).pWaveform = s.pWaveform := rfl
  rw [hw]
  split <;> rfl

/-- A stage of a sample writes no entry. -/
theorem SharesEntries.sample (h : SharesEntries s u) (hs : 4 ≤ s.stage.toNat ∧ s.stage.toNat ≤ 11)
    (hs' : 4 ≤ s'.stage.toNat ∧ s'.stage.toNat ≤ 11) (hsame : s'.agenda = s.agenda ∧ s'.sb = s.sb ∧ s'.i = s.i) :
    SharesEntries s' u := by
  obtain ⟨hagenda, hsb, hi⟩ := hsame
  obtain ⟨hnil, -, hwf, hwf', hentries⟩ := h
  rw [entriesWritten_passOne hs] at hentries
  refine ⟨hagenda.trans hnil, .inr hs'.1, by rwa [hsb], hwf', fun j hj => ?_⟩
  rw [entriesWritten_passOne hs', hi] at hj
  rw [hsb]
  exact hentries j hj

theorem nextAfterStorePeak_withLeftovers (s u : State) :
    (s.withLeftovers u).nextAfterStorePeak = s.nextAfterStorePeak.withLeftovers u := by
  unfold State.nextAfterStorePeak
  have hmore : (s.withLeftovers u).moreSamples = s.moreSamples := rfl
  rw [hmore]
  split <;> rfl

/-- STORE_PEAK stores the same sample in both buffers (R152). -/
theorem SharesEntries.stored (h : SharesEntries s u) (hst : s.stage.toNat = 11) :
    SharesEntries s.storedPeak.nextAfterStorePeak { u with sb := storeEntry u.sb s.i.toNat (f32OfF64 s.s) } := by
  obtain ⟨hnil, -, hwf, hwf', hentries⟩ := h
  rw [entriesWritten_passOne (by omega)] at hentries
  have hload {j : Nat} (hj : j < s.i.toNat + 1) :
      loadEntry (storeEntry u.sb s.i.toNat (f32OfF64 s.s)) j = loadEntry s.storedPeak.sb j :=
    load_storeEntry_congr hwf hwf' (fun hne => hentries j (by omega)) fun _ => rfl
  have hfirst := firstStage_range s.inst.phaseOrder
  rcases nextAfterStorePeak_cases s.storedPeak with ⟨hmore, heq⟩ | ⟨hlast, heq⟩ <;> rw [heq]
  · have hrange : 4 ≤ (firstStage s.inst.phaseOrder).toNat ∧ (firstStage s.inst.phaseOrder).toNat ≤ 11 := by omega
    refine ⟨hnil, .inr hrange.1, storeEntry_wf hwf, storeEntry_wf hwf', fun j hj => hload ?_⟩
    rw [entriesWritten_passOne hrange] at hj
    exact hj.trans_eq (index_succ_toNat hmore)
  · exact ⟨hnil, .inr (by decide : 4 ≤ 12), storeEntry_wf hwf, storeEntry_wf hwf',
      fun j hj => hload (hj.trans_le hlast)⟩

/-- SCALE scales the same entry of both buffers by the same factor (R154). -/
theorem SharesEntries.scaledBuffer (h : SharesEntries s u) (hst : s.stage.toNat = 12) {j : Nat}
    (hj : j < s.numSamples.toNat) :
    loadEntry (s.withLeftovers u).scaledBuffer j = loadEntry s.scaledBuffer j := by
  obtain ⟨-, -, hwf, hwf', hentries⟩ := h
  rw [entriesWritten_passTwo (.inr hst)] at hentries
  refine load_storeEntry_congr hwf hwf' (fun _ => hentries j hj) fun hi => ?_
  subst hi
  exact congrArg (fun w => f32OfF64 (fmul (f64OfF32 w) s.factor)) (hentries _ hj)

theorem SharesEntries.scaled (h : SharesEntries s u) (hst : s.stage.toNat = 12) (hexec : exec .scale s = .next s') :
    ∃ u', exec .scale (s.withLeftovers u) = .next (s'.withLeftovers u') ∧ SharesEntries s' u' := by
  obtain ⟨hi, -⟩ := atEntry_next hexec
  have hentries (j : Nat) (hj : j < s.numSamples.toNat) := h.scaledBuffer hst hj
  have hwf := storeEntry_wf (i := s.i.toNat) (w := s.scaledEntry) h.wf
  have hwf' := storeEntry_wf (i := s.i.toNat) (w := (s.withLeftovers u).scaledEntry) h.wf'
  by_cases hmore : s.i.toNat + 1 < s.numSamples.toNat
  · rw [execScale_of_more hi hmore] at hexec
    cases hexec
    exact ⟨{ u with sb := (s.withLeftovers u).scaledBuffer }, execScale_of_more (s := s.withLeftovers u) hi hmore,
      h.agenda, .inr (by decide : 4 ≤ 12), hwf, hwf', hentries⟩
  · rw [execScale_of_last hi (Nat.not_lt.1 hmore)] at hexec
    cases hexec
    exact
      ⟨{ u with
          sb := (s.withLeftovers u).scaledBuffer, renderCycles := Config.renderCyclesFn u.renders, done := true },
        execScale_of_last (s := s.withLeftovers u) hi (Nat.not_lt.1 hmore), h.agenda, .inl rfl, hwf, hwf', hentries⟩

/-- The source operations read their own state, the phase and the parameters (R107, R114). -/
theorem SharesEntries.sourced (h : SharesEntries s u) (hst : s.stage.toNat = 4) (hexec : exec .source s = .next s') :
    exec .source (s.withLeftovers u) = .next (s'.withLeftovers u) ∧ SharesEntries s' u := by
  have hafter := afterSource_range s.inst.phaseOrder
  change execSource s = _ at hexec
  unfold execSource at hexec
  split at hexec <;> cases hexec
  next v hv =>
    refine ⟨?_, ?_⟩
    · change execSource _ = _
      rw [execSource, sourced_withLeftovers, hv]
      rfl
    · obtain ⟨-, x, d, b, k, rfl⟩ := sourced_cases hv
      exact h.sample (by omega) (by simp only [State.goto_stage]; omega) ⟨rfl, rfl, rfl⟩

/-- One engine step does the same with other leftovers (R98, R103). -/
theorem SharesEntries.step (h : SharesEntries s u) (hstep : step s = .next s') :
    ∃ u', step (s.withLeftovers u) = .next (s'.withLeftovers u') ∧ SharesEntries s' u' := by
  obtain ⟨i, hd, hexec⟩ := exec_of_step h.agenda hstep
  rw [step_of_nil (s := s.withLeftovers u) h.agenda hd]
  have hstage := h.stage
  unfold decodeStage at hd
  split at hd <;> cases hd
  case h_1 =>
    cases hexec
    exact ⟨u, rfl, h⟩
  case h_2 hst | h_3 hst | h_4 hst => exact absurd hstage (by omega)
  case h_5 hst => exact ⟨u, h.sourced hst hexec⟩
  case h_6 hst =>
    have hafter := afterFreq_range s.inst.phaseOrder
    cases hexec
    exact ⟨u, rfl, h.sample (by omega) (by simp only; omega) ⟨rfl, rfl, rfl⟩⟩
  case h_7 hst | h_8 hst | h_9 hst | h_10 hst | h_11 hst =>
    cases hexec
    exact ⟨u, rfl, h.sample (by omega) ⟨by simp, by simp⟩ ⟨rfl, rfl, rfl⟩⟩
  case h_12 hst =>
    obtain ⟨hi, rfl⟩ := atEntry_next hexec
    refine ⟨_, (atEntry_of_lt hi).trans (congrArg _ ?_), h.stored hst⟩
    exact nextAfterStorePeak_withLeftovers s.storedPeak { u with sb := storeEntry u.sb s.i.toNat (f32OfF64 s.s) }
  case h_13 hst => exact h.scaled hst hexec

theorem SharesEntries.run {n : Nat} (h : SharesEntries s u) (hrun : runSteps n s = .next s') :
    ∃ u', runSteps n (s.withLeftovers u) = .next (s'.withLeftovers u') ∧ SharesEntries s' u' := by
  induction n generalizing s u with
  | zero =>
    cases hrun
    exact ⟨u, rfl, h⟩
  | succ n ih =>
    obtain ⟨v, hv, hrest⟩ := runSteps_succ_next hrun
    obtain ⟨w, hw, hshares⟩ := h.step hv
    rw [runSteps_succ hw]
    exact ih hshares hrest

/-! ### The setup of a render -/

/-- The state after VALIDATE, NORMALIZE and INIT of a valid set (R91, R92, R94). -/
def State.initialised (s : State) : State :=
  { s with
    numSamples := s.count, duration := s.renderDuration, repeatFreqEff := s.flooredRepeat
    phase := fzero, pink := Vector.replicate 7 fzero, brown := fzero, draws := 0
    lpfY := fzero, hpfX := fzero, hpfY := fzero, s := fzero, f := fzero, a0 := s.initialAmplitude
    maxSample := fzero, i := 0, stage := firstStage s.inst.phaseOrder }

theorem runSteps_setup (h : s.renderPending) (hvalid : s.validationError = none) :
    runSteps 3 s = .next s.initialised := by
  obtain ⟨-, hstage, hagenda⟩ := h
  have hvalidate : Machine.step s = .next (s.goto stNormalize) :=
    (step_of_nil (i := .validate) hagenda (by rw [hstage]; rfl)).trans (execValidate_of_none hvalid)
  have hnormalize := step_of_nil (s := s.goto stNormalize) (i := .normalize) hagenda rfl
  rw [runSteps_succ hvalidate, runSteps_succ hnormalize, State.initialised, State.initialAmplitude_eq]
  exact runSteps_one (step_of_nil (i := .init) hagenda rfl)

/-- INIT leaves nothing of the renders before but the leftovers (R94, R103). -/
theorem initialised_withLeftovers {s₁ s₂ : State} (h₁ : s₁.renderPending) (h₂ : s₂.renderPending)
    (hinst : s₁.inst = s₂.inst) (hp : s₁.p = s₂.p) : s₂.initialised = s₁.initialised.withLeftovers s₂ := by
  obtain ⟨hbusy₁, -, hagenda₁⟩ := h₁
  obtain ⟨hbusy₂, -, hagenda₂⟩ := h₂
  cases s₁
  cases s₂
  subst hinst hp hbusy₁ hbusy₂ hagenda₁ hagenda₂
  rfl

theorem sharesEntries_initialised (h : s.renderPending) (hwf : Memory.wf s.sb = true) (hwf' : Memory.wf u.sb = true) :
    SharesEntries s.initialised u := by
  obtain ⟨-, -, hagenda⟩ := h
  obtain ⟨hlo, hhi⟩ := firstStage_range s.inst.phaseOrder
  have hstage : 4 ≤ s.initialised.stage.toNat ∧ s.initialised.stage.toNat ≤ 11 := ⟨hlo, hhi.trans (by decide)⟩
  refine ⟨hagenda, .inr hlo, hwf, hwf', fun j hj => ?_⟩
  rw [entriesWritten_passOne hstage] at hj
  exact absurd hj (Nat.not_lt_zero j)

end

end Sys2Proof.Machine
end

section
/-!
PROOFS. The statements on the commands, on VALIDATE, NORMALIZE and INIT, and on the run of a render as a whole.
-/

namespace Sys2Proof.Proofs.Control
open Sys2Proof.Machine

/-! ### Commands and errors -/

/-- Settles O53: of the stages VALIDATE, and of the transactions an illegal word to CMD, are all that sets ERROR. -/
theorem errorsAriseOnlyInValidateOrAtCmd : Obligations.ErrorsAriseOnlyInValidateOrAtCmd := by
  intro s t hclear hstep hset
  rcases step_next hstep with ⟨hturn, he⟩ | ⟨r, hhead, hbase, hbus⟩
  · rcases he.error_cases with heq | ⟨hst, hcode⟩
    · exact absurd (heq.symm.trans hset) (by simp [hclear])
    · exact .inl ⟨hturn, BitVec.eq_of_toNat_eq hst, hcode⟩
  · rcases hbus.error_cases with hkept | ⟨hb, hinfo, ⟨hd, ha⟩, hv⟩
    · exact absurd (hkept hset) (by simp [hclear])
    · exact .inr ⟨hb, hinfo, r.data, commandTurn_of_host hhead hbase hd ha, hv⟩

/-- Settles O6: the BUSY gate of R80 on the word 0. -/
theorem nopAndIdleChangeNothing : Obligations.NopAndIdleChangeNothing :=
  ⟨fun _ hb => congrArg _ (issueCommand_nop hb), fun _ hb => congrArg _ (issueCommand_of_busy hb (by decide)),
    fun _ => rfl⟩

/-- Settles O7: the power-on values, with the fields that `resetBlock` keeps. -/
theorem resetCommandGivesEveryElementItsResetValue : Obligations.ResetCommandGivesEveryElementItsResetValue :=
  fun s => congrArg _ (issueCommand_reset s)

/-- Settles O8: the BUSY gate of R80 on the word 2. -/
theorem startBeginsARender : Obligations.StartBeginsARender :=
  ⟨fun _ hb => congrArg _ (issueCommand_start hb), fun _ hb => congrArg _ (issueCommand_of_busy hb (by decide))⟩

/-- Settles O9: a write to CMD issues its word, and the three commands are issued words too. -/
theorem commandWritesIssueTheirWord : Obligations.CommandWritesIssueTheirWord := by
  refine fun s => ⟨execWr64_cmd s 0x0, execWr64_cmd s 0x1, execWr64_cmd s 0x2, fun v h0 h1 h2 => ?_⟩
  refine ⟨fun hb => ?_, fun hb => ?_⟩
  · rw [execWr64_cmd, issueCommand_of_busy hb h1]
    rfl
  · rw [execWr64_cmd, issueCommand_illegal hb h0 h1 h2]
    rfl

/-! ### VALIDATE, NORMALIZE and INIT -/

/-- Settles O12: VALIDATE looks for the lowest illegal index, and only then at the sum and the count. -/
theorem validateReportsTheFirstFailure : Obligations.ValidateReportsTheFirstFailure := by
  refine fun s => ⟨fun k hk hlow => execValidate_of_some (validationError_of_illegal k hk hlow), fun hlegal => ?_⟩
  have herror := validationError_of_legal hlegal
  refine ⟨fun hsum => ?_, fun hsum hcount => ?_, fun hsum hcount => ?_⟩
  · rw [if_pos (badHarmonicSum_iff.2 hsum)] at herror
    exact execValidate_of_some herror
  · rw [if_neg (mt badHarmonicSum_iff.1 hsum), if_pos (badCount_iff.2 hcount)] at herror
    exact execValidate_of_some herror
  · rw [if_neg (mt badHarmonicSum_iff.1 hsum), if_neg (mt badCount_iff.1 hcount)] at herror
    exact execValidate_of_none herror

/-- Settles O14: a valid set passes R90's check, and `max` and `ceil` are exact. -/
theorem sampleCountIsTheCeilingOfTheProduct : Obligations.SampleCountIsTheCeilingOfTheProduct := by
  intro s hlegal hvalid
  have hcount := badCount_of_valid hvalid
  exact ⟨_, rfl, State.count_eq_ceil hlegal hcount, State.count_range hlegal hcount⟩

/-- Settles O10: each row is a comparison with 0, 1 or 100, which binary64 holds exactly. -/
theorem legalValuesAreTheTable : Obligations.LegalValuesAreTheTable := by
  intro m v
  refine ⟨fun k hk => ?_, fun k hk => ?_, fun k hk => ?_, ?_, fun k hk => ?_, decide_eq_true_iff, decide_eq_true_iff,
    ?_⟩
  · fin_cases hk <;> exact legal_positive_iff
  · fin_cases hk <;> exact legal_nonneg_iff
  · fin_cases hk <;> exact_mod_cast legal_upTo_iff (v := v) (n := 100) (by norm_num)
  · exact_mod_cast legal_upTo_iff (v := v) (n := 1) (by norm_num)
  · fin_cases hk <;> exact Iff.rfl
  · exact (Bool.or_eq_true _ _).to_iff.trans (or_congr decide_eq_true_iff decide_eq_true_iff)

/-- Settles O13: the stage computes the three results by the formulas of R91 and R92. -/
theorem normalizeWritesTheDerivedResults : Obligations.NormalizeWritesTheDerivedResults := fun _ => rfl

/-- Settles O15: the two case distinctions, on the tag and on the phase order, are the model's. -/
theorem initClearsTheSynthesisState : Obligations.InitClearsTheSynthesisState := by
  intro s
  simp only [exec, execInit, ← State.initialAmplitude_eq, ← firstStage_eq]
  rfl

/-! ### SCALE and pass 2 -/

/-- Settles O35: the new buffer is the scaled entry in the old one. -/
theorem scaleMultipliesTheEntryByTheFactor : Obligations.ScaleMultipliesTheEntryByTheFactor := by
  intro s hwf hi
  refine ⟨s.scaledBuffer, ?_, fun a ha => storeEntry_read_other hwf ha, ?_⟩
  · rw [load_scaledBuffer_same hwf, State.scaledWord, State.factor_eq]
  · split
    · next hmore => exact execScale_of_more hi hmore
    · next hlast => exact execScale_of_last hi (Nat.not_lt.1 hlast)

/-- Settles O36: pass 2 from its entry 0. -/
theorem passTwoScalesEveryEntryOnce : Obligations.PassTwoScalesEveryEntryOnce := by
  intro s hwf ha hst hi hpos hfits
  have hi0 : s.i.toNat = 0 := by rw [hi]; rfl
  obtain ⟨n, hn⟩ := Nat.exists_eq_add_of_le' hpos
  obtain ⟨t, hrun, hscaled, hothers, hframe, hlast⟩ := runSteps_passTwo n hwf ha hst (by omega) hfits
  rw [hi0] at hscaled hothers
  exact ⟨t, hn ▸ hrun, fun j => hscaled j (Nat.zero_le j), hothers, hframe, hlast⟩

/-! ### A whole render -/

/-- Settles O47: a pending render has three steps of setup, eight for each sample and one for each entry left. -/
theorem aRenderTakesExactlyThreePlusNineNSteps : Obligations.ARenderTakesExactlyThreePlusNineNSteps := by
  intro s hlegal hpending hvalid
  obtain ⟨hbusy, t, hrun, hend⟩ := (hpending.rendering hlegal hvalid).run hpending.stepsLeft
  exact ⟨hbusy, t, hrun, hend.busy, hend.done, hend.stage, hend.samples, hend.index, hend.parameters⟩

/-! ### Two renders -/

/-- Settles O48: after the setup the second state is the first with other leftovers, and the run shares every entry. -/
theorem rendersAreDeterministic : Obligations.RendersAreDeterministic := by
  intro s₁ s₂ hinst hp hlegal hpending₁ hpending₂ hwf₁ hwf₂ hvalid
  have hsetup₁ := runSteps_setup hpending₁ hvalid
  have hsetup₂ := runSteps_setup hpending₂ ((validationError_congr hinst.symm hp.symm).trans hvalid)
  rw [initialised_withLeftovers hpending₁ hpending₂ hinst hp] at hsetup₂
  obtain ⟨-, t, hrun, hend⟩ := (hpending₁.rendering hlegal hvalid).run hpending₁.stepsLeft
  have hshares := sharesEntries_initialised hpending₁ hwf₁ hwf₂
  obtain ⟨u, hrun', hshares'⟩ := hshares.run ((runSteps_add _ hsetup₁).symm.trans hrun)
  have hwritten : t.entriesWritten = s₁.count.toNat := by
    rw [entriesWritten_passTwo (.inl (by rw [hend.stage]; rfl)), hend.samples]
  exact ⟨t, t.withLeftovers u, hrun, (runSteps_add _ hsetup₂).trans hrun', rfl, rfl, rfl, rfl,
    fun j hj => (hshares'.entries j (hwritten ▸ hj)).symm⟩

end Sys2Proof.Proofs.Control
end

section
/-!
SUPPORT. The noise operations (R107 to R113), each as one update of the state by the draw it takes.
-/

namespace Sys2Proof.Machine

theorem ffinite_prngStream (n : Nat) : ffinite (prngStream n) = true := by
  obtain ⟨hlo, hhi⟩ := prngStream_range n
  exact ffinite_of_range hlo hhi

/-- Every draw lies in [-1, 1] as a number (R16). -/
theorem f64Value_prngStream_range (n : Nat) : -1 ≤ f64Value (prngStream n) ∧ f64Value (prngStream n) ≤ 1 := by
  obtain ⟨hlo, hhi⟩ := prngStream_range n
  rw [fle_iff (by rw [ffinite_fneg, ffinite_one]) (ffinite_prngStream n), f64Value_fneg, f64Value_one] at hlo
  rw [fle_iff (ffinite_prngStream n) ffinite_one, f64Value_one] at hhi
  exact ⟨hlo, hhi⟩

theorem pinkSignFactor_eq (c : Config.PinkSign) :
    pinkSignFactor c = if c = .minus then fneg (freal 1) else freal 1 := by
  cases c <;> rfl

theorem exec_srcWhitenoise (s : State) :
    exec .srcWhitenoise s = .next { s with s := prngStream s.draws.toNat, draws := s.draws + 1 } := rfl

theorem exec_srcPinknoise (s : State) : exec .srcPinknoise s = .next s.srcPinknoise := rfl

/-- Pink noise changes the sample, the taps and the count of draws alone (R107). The taps are compared as arrays: a
vector's length proof names its entries, so they are not rewritten inside the vector. -/
theorem State.srcPinknoise_eq_of {s : State} {x : F64} {k : Vector F64 7} (hs : s.srcPinknoise.s = x)
    (hk : s.srcPinknoise.pink.toArray = k.toArray) :
    s.srcPinknoise = { s with s := x, pink := k, draws := s.draws + 1 } := by
  rw [← hs, ← Vector.toArray_inj.1 hk]
  rfl

theorem exec_srcBrownnoise (s : State) : exec .srcBrownnoise s = .next s.srcBrownnoise := rfl

/-- The clamped value is both the sample and the walk's next position (R112). -/
theorem State.srcBrownnoise_eq (s : State) :
    let b := fclamp (fneg (freal 1)) (freal 1) (fadd s.brown (fmul (flit 1 10) (prngStream s.draws.toNat)))
    s.srcBrownnoise = { s with brown := b, s := b, draws := s.draws + 1 } := rfl

end Sys2Proof.Machine
end

section
/-!
PROOFS. The statements on the noise source.
-/

namespace Sys2Proof.Proofs.Noise
open Sys2Proof.Machine

/-- Settles O22: the clamp keeps the walk in [-1, 1], because neither the walk nor a draw is a NaN. -/
theorem brownNoiseWalksWithinTheUnit : Obligations.BrownNoiseWalksWithinTheUnit := fun s =>
  ⟨s.srcBrownnoise, exec_srcBrownnoise s, s.srcBrownnoise_eq, State.srcBrownnoise_brownOk⟩

/-- Settles O20: a draw is the stream's value, and the stream keeps only values of [-1, 1]. -/
theorem whiteNoiseIsTheNextDraw : Obligations.WhiteNoiseIsTheNextDraw := fun s =>
  ⟨exec_srcWhitenoise s, ffinite_prngStream _, f64Value_prngStream_range _⟩

/-- Settles O21: the factor of the sixth tap is ±1 by the sign; the taps and the sum are the model's own. -/
theorem pinkNoiseRunsItsFilterBank : Obligations.PinkNoiseRunsItsFilterBank := by
  intro s
  have hsign := pinkSignFactor_eq s.inst.pinkB5Sign
  refine (exec_srcPinknoise s).trans (congrArg Host.Outcome.next (State.srcPinknoise_eq_of ?sample ?taps))
  case sample => simp only [State.srcPinknoise, State.draw, pinkTap, pinkOut, hsign]
  case taps => simp only [State.srcPinknoise, State.draw, pinkTap, hsign]

end Sys2Proof.Proofs.Noise
end

section
/-!
SUPPORT. The oscillator: the loops of R114 and R115 as the recurrences the statements run, and the exact arithmetic of
the linear shapes (R118, R119) on a phase in [0, 1].
-/

namespace Sys2Proof.Machine

/-! ### The two loops (R114, R115) -/

/-- The loop of R115 from the sum and the power of pass `k`, `n` passes on. -/
theorem harmonicSumFrom_eq_of_recurrence {r : F64} {sig t : Nat → F64} (hsig : ∀ k, sig (k + 1) = fadd (sig k) (t k))
    (ht : ∀ k, t (k + 1) = fmul (t k) r) (n k : Nat) : harmonicSumFrom r n (sig k) (t k) = sig (k + n) := by
  induction n generalizing k with
  | zero => rfl
  | succ n ih => rw [harmonicSumFrom, ← hsig, ← ht, ih, Nat.add_right_comm, Nat.add_assoc]

/-- An operation that is OscSum of `shape` answers the state with S.s at the recurrence's sum over the harmonics 0 to
P.harmonics (R114, R116). -/
theorem exec_of_oscillate {s : State} {i : Instr} {shape : F64 → F64} {acc amp : Nat → F64}
    (hexec : exec i s = .next (s.oscillate shape)) (hacc0 : acc 0 = 0) (hamp0 : amp 0 = s.a0)
    (hacc : ∀ h, acc (h + 1) = fadd (acc h) (fmul (amp h) (shape (ffrac (fmul s.phase (freal (h + 1)))))))
    (hamp : ∀ h, amp (h + 1) = fmul (amp h) s.p[17]) :
    exec i s = .next { s with s := acc (s.p[16].toNat + 1) } := by
  have hsum : s.oscSum shape = acc (s.p[16].toNat + 1) := by
    have h := oscSumFrom_eq_of_recurrence hacc hamp (s.p[16].toNat + 1) 0
    rw [hacc0, hamp0, Nat.zero_add] at h
    exact h
  rw [hexec, State.oscillate, hsum]

/-! ### Each operation is OscSum of its shape (R117 to R124) -/

section
variable (s : State)

theorem exec_srcSine : exec .srcSine s = .next (s.oscillate shapeSine) := rfl
theorem exec_srcTriangle : exec .srcTriangle s = .next (s.oscillate shapeTriangle) := rfl
theorem exec_srcSawtooth : exec .srcSawtooth s = .next (s.oscillate shapeSawtooth) := rfl
theorem exec_srcSquare : exec .srcSquare s = .next (s.oscillate (shapeSquare s.duty)) := rfl
theorem exec_srcTangent : exec .srcTangent s = .next (s.oscillate shapeTangent) := rfl
theorem exec_srcWhistle : exec .srcWhistle s = .next (s.oscillate shapeWhistle) := rfl
theorem exec_srcBreaker : exec .srcBreaker s = .next (s.oscillate shapeBreaker) := rfl

end

/-! ### Exact operations -/

/-- The pattern `x` is finite and stands for the number `v`. -/
def Holds (x : F64) (v : ℚ) : Prop := ffinite x = true ∧ f64Value x = v

/-- The number `v` is the value of a finite binary64 pattern. -/
def IsBinary64 (v : ℚ) : Prop := ∃ x, Holds x v

section
variable {a b x : F64} {u v : ℚ}

/-- Rounding a number that binary64 holds gives that number. -/
theorem RoundsTo.holds (h : RoundsTo (v : ℝ) x) (hv : IsBinary64 v) : Holds x v := by
  obtain ⟨y, hy, rfl⟩ := hv
  exact h.eq_value hy rfl

theorem Holds.fmul (ha : Holds a u) (hb : Holds b v) (huv : IsBinary64 (u * v)) : Holds (fmul a b) (u * v) := by
  obtain ⟨hfa, rfl⟩ := ha
  obtain ⟨hfb, rfl⟩ := hb
  exact (roundsTo_fmul hfa hfb).holds huv

theorem Holds.fsub (ha : Holds a u) (hb : Holds b v) (huv : IsBinary64 (u - v)) : Holds (fsub a b) (u - v) := by
  obtain ⟨hfa, rfl⟩ := ha
  obtain ⟨hfb, rfl⟩ := hb
  exact (roundsTo_fsub hfa hfb).holds huv

theorem Holds.flt_iff (ha : Holds a u) (hb : Holds b v) : flt a b = true ↔ u < v := by
  obtain ⟨hfa, rfl⟩ := ha
  obtain ⟨hfb, rfl⟩ := hb
  exact Sys2Proof.Machine.flt_iff hfa hfb

theorem holds_freal {n : Nat} (hn : n ≤ 2 ^ 53) : Holds (freal n) n := freal_small hn

/-! ### Which numbers binary64 holds -/

/-- A multiple of 2^-53 in [-1, 1] has a significand of at most 53 bits. -/
theorem isBinary64_of_grid {z : ℤ} (hz : v * 2 ^ 53 = z) (hv : |v| ≤ 1) : IsBinary64 v := by
  have hsize : z.natAbs ≤ 2 ^ 53 := by
    have habs : |(z : ℚ)| ≤ 2 ^ 53 := by
      rw [← hz, abs_mul, abs_of_pos (by positivity : (0 : ℚ) < 2 ^ 53)]
      exact mul_le_of_le_one_left (by positivity) hv
    zify
    exact_mod_cast habs
  obtain ⟨hfin, hval⟩ := f64OfRatio_exact (decide (z < 0)) hsize (by norm_num : 1021 ≤ 2044)
  have hunit : (2 : ℝ) ^ 1074 = 2 ^ 53 * 2 ^ 1021 := by rw [← pow_add]
  have hz' : (v : ℝ) * 2 ^ 53 = z := by exact_mod_cast hz
  have hvalue : (f64Value (f64OfRatio (decide (z < 0)) (z.natAbs * 2 ^ 1021) 1) : ℝ) = v := by
    rw [hval, Nat.cast_mul, ← mul_assoc, signFactor_mul_natAbs, unitsPerOne_cast, hunit, Nat.cast_pow, Nat.cast_ofNat,
      mul_div_mul_right _ _ (by positivity), ← hz', mul_div_cancel_right₀ _ (by positivity)]
  exact ⟨_, hfin, by exact_mod_cast hvalue⟩

/-- A literal on the same grid is exact. -/
theorem holds_flit_of_grid {n d : Nat} {z : ℤ} (hd : 0 < d) (hv : (n / d : ℚ) = v) (hz : v * 2 ^ 53 = z)
    (hle : |v| ≤ 1) : Holds (flit n d) v := by
  subst hv
  exact (roundsTo_flit n hd).holds (isBinary64_of_grid hz hle)

theorem two_pow_le_unitsPerOne_iff {k : Nat} : 2 ^ k ≤ unitsPerOne ↔ k ≤ 1074 := by
  rw [unitsPerOne_eq, Nat.pow_le_pow_iff_right one_lt_two]

theorem unitsPerOne_eq_two_pow_mul {j k : Nat} (h : j + k = 1074) : unitsPerOne = 2 ^ j * 2 ^ k := by
  rw [← pow_add, h, unitsPerOne_eq]

/-- The units of a value are a significand of at most 53 bits at a binade. -/
theorem exists_fmag_eq (x : F64) : ∃ k r, fmag x = r * 2 ^ k ∧ r < 2 ^ 53 ∧ (k = 0 ∨ 2 ^ 52 ≤ r) := by
  obtain ⟨k, r, hb, hr, hk⟩ := exists_significand 52 (fbits x)
  exact ⟨k, r, by rw [fmag_eq, hb, magUnits_eq hr.le hk], hr, hk⟩

theorem f64Value_mul_units (x : F64) : f64Value x * unitsPerOne = fscaled x :=
  div_mul_cancel₀ _ (by exact_mod_cast unitsPerOne_pos.ne')

theorem abs_f64Value_mul_units (x : F64) : |f64Value x| * unitsPerOne = fmag x := by
  rw [← natAbs_fscaled, Nat.cast_natAbs, Int.cast_abs, ← f64Value_mul_units, abs_mul, Nat.abs_cast]

/-- A value of at least 1/4 is a multiple of 2^-54: its last significand bit stands for no less. -/
theorem Holds.exists_grid (hx : Holds x v) (hv : 1 / 4 ≤ v) : ∃ z : ℤ, v * 2 ^ 54 = z := by
  obtain ⟨-, rfl⟩ := hx
  obtain ⟨k, r, hmag, hr, -⟩ := exists_fmag_eq x
  have hquarter : unitsPerOne ≤ 2 ^ 2 * fmag x := by
    have h : (unitsPerOne : ℚ) ≤ 2 ^ 2 * fmag x := by
      rw [← abs_f64Value_mul_units, abs_of_pos (by linarith), ← mul_assoc]
      exact le_mul_of_one_le_left (Nat.cast_nonneg _) (by linarith)
    exact_mod_cast h
  have hbinade : unitsPerOne < 2 ^ (2 + (53 + k)) :=
    calc unitsPerOne ≤ 2 ^ 2 * (r * 2 ^ k) := hmag ▸ hquarter
      _ < 2 ^ 2 * (2 ^ 53 * 2 ^ k) := by gcongr
      _ = 2 ^ (2 + (53 + k)) := by rw [← pow_add, ← pow_add]
  have hk : 1020 ≤ k := by
    rw [← not_le, two_pow_le_unitsPerOne_iff] at hbinade
    omega
  obtain ⟨j, hsplit, z, hz⟩ : ∃ j, unitsPerOne = 2 ^ 54 * 2 ^ j ∧ ((2 ^ j : Nat) : ℤ) ∣ fscaled x := by
    refine ⟨1020, unitsPerOne_eq_two_pow_mul (by norm_num), ?_⟩
    rw [Int.natCast_dvd, natAbs_fscaled, hmag]
    exact (pow_dvd_pow 2 hk).mul_left r
  have hunits := f64Value_mul_units x
  rw [hsplit, hz] at hunits
  push_cast at hunits
  exact ⟨z, mul_right_cancel₀ (pow_ne_zero j two_ne_zero) (by linarith)⟩

/-- Multiplying a value of magnitude at most 1 by a small power of two is exact. -/
theorem Holds.isBinary64_two_pow_mul {j : Nat} (hx : Holds x v) (hv : |v| ≤ 1) (hj : j ≤ 1022) :
    IsBinary64 (2 ^ j * v) := by
  obtain ⟨-, rfl⟩ := hx
  obtain ⟨k, r, hmag, hr, hk⟩ := exists_fmag_eq x
  have hone : fmag x ≤ unitsPerOne := by
    have h : (fmag x : ℚ) ≤ unitsPerOne := by
      rw [← abs_f64Value_mul_units]
      exact mul_le_of_le_one_left (Nat.cast_nonneg _) hv
    exact_mod_cast h
  have hk' : k ≤ 1022 := by
    rcases hk with rfl | hlow
    · omega
    · have hbinade : 2 ^ (52 + k) ≤ unitsPerOne :=
        calc 2 ^ (52 + k) = 2 ^ 52 * 2 ^ k := pow_add 2 52 k
          _ ≤ fmag x := hmag ▸ Nat.mul_le_mul_right _ hlow
          _ ≤ unitsPerOne := hone
      rw [two_pow_le_unitsPerOne_iff] at hbinade
      omega
  obtain ⟨hfin, hval⟩ := f64OfRatio_exact (fsign x) (a := r) (k := k + j) hr.le (by omega)
  have hvalue : (f64Value (f64OfRatio (fsign x) (r * 2 ^ (k + j)) 1) : ℝ) = 2 ^ j * f64Value x := by
    rw [hval, f64Value_cast x, ← fmag_eq, hmag]
    push_cast
    ring
  exact ⟨_, hfin, by exact_mod_cast hvalue⟩

end

/-! ### The linear shapes (R118, R119) -/

section
variable {x : F64} {p : ℚ}

/-- A phase in [0, 1] multiplied by a literal power of two. -/
theorem Holds.freal_mul {n : Nat} (j : Nat) (hx : Holds x p) (h0 : 0 ≤ p) (h1 : p ≤ 1) (hj : j ≤ 53) (hn : n = 2 ^ j) :
    Holds (Machine.fmul (freal n) x) (n * p) := by
  subst hn
  refine (holds_freal (Nat.pow_le_pow_right two_pos hj)).fmul hx ?_
  rw [Nat.cast_pow, Nat.cast_ofNat]
  exact hx.isBinary64_two_pow_mul (by rwa [abs_of_nonneg h0]) (by omega)

/-- From 1/4 on, where the triangle subtracts, the phase is coarse enough for the difference to be exact. -/
theorem holds_shapeTriangle (hx : Holds x p) (h0 : 0 ≤ p) (h1 : p ≤ 1) :
    Holds (shapeTriangle x) (if p < 1 / 4 then 4 * p else if p < 3 / 4 then 2 - 4 * p else 4 * p - 4) := by
  have hlow : Holds (flit 1 4) (1 / 4) :=
    holds_flit_of_grid (z := 2 ^ 51) (by norm_num) (by norm_num) (by norm_num) (by norm_num [abs_le])
  have hhigh : Holds (flit 3 4) (3 / 4) :=
    holds_flit_of_grid (z := 3 * 2 ^ 51) (by norm_num) (by norm_num) (by norm_num) (by norm_num [abs_le])
  have hfour : Holds (fmul (freal 4) x) (4 * p) := hx.freal_mul 2 h0 h1 (by norm_num) rfl
  simp only [shapeTriangle, hx.flt_iff hlow, hx.flt_iff hhigh]
  split_ifs with hfirst hsecond
  · exact hfour
  · have htwo : Holds (freal 2) 2 := holds_freal (by norm_num)
    obtain ⟨z, hz⟩ := hx.exists_grid (not_lt.1 hfirst)
    have hgrid : (2 - 4 * p) * 2 ^ 53 = (2 ^ 54 - 2 * z : ℤ) := by
      push_cast
      linarith
    exact htwo.fsub hfour (isBinary64_of_grid hgrid (abs_le.2 ⟨by linarith, by linarith⟩))
  · obtain ⟨z, hz⟩ := hx.exists_grid (not_lt.1 hfirst)
    have hgrid : (4 * p - 4) * 2 ^ 53 = (2 * z - 2 ^ 55 : ℤ) := by
      push_cast
      linarith
    exact hfour.fsub (holds_freal (by norm_num))
      (isBinary64_of_grid hgrid (abs_le.2 ⟨by linarith, by linarith⟩))

/-- The sawtooth subtracts from 1/2 on. -/
theorem holds_shapeSawtooth (hx : Holds x p) (h0 : 0 ≤ p) (h1 : p ≤ 1) :
    Holds (shapeSawtooth x) (if p < 1 / 2 then 2 * p else 2 * p - 2) := by
  have hhalf : Holds (flit 1 2) (1 / 2) :=
    holds_flit_of_grid (z := 2 ^ 52) (by norm_num) (by norm_num) (by norm_num) (by norm_num [abs_le])
  have htwice : Holds (fmul (freal 2) x) (2 * p) := hx.freal_mul 1 h0 h1 (by norm_num) rfl
  simp only [shapeSawtooth, hx.flt_iff hhalf]
  split_ifs with hfirst
  · exact htwice
  · obtain ⟨z, hz⟩ := hx.exists_grid (by linarith)
    have hgrid : (2 * p - 2) * 2 ^ 53 = (z - 2 ^ 54 : ℤ) := by
      push_cast
      linarith
    exact htwice.fsub (holds_freal (by norm_num))
      (isBinary64_of_grid hgrid (abs_le.2 ⟨by linarith, by linarith⟩))

end

end Sys2Proof.Machine
end

section
/-!
PROOFS. The statements on the harmonic oscillator.
-/

namespace Sys2Proof.Proofs.Oscillator
open Sys2Proof.Machine

/-- Settles O17: each operation is OscSum of its shape, and OscSum runs the recurrence. The square of a NaN phase is
the model's reading of R120 with R8 (log entry 25). -/
theorem algebraicOscillatorsSumTheirHarmonics : Obligations.AlgebraicOscillatorsSumTheirHarmonics := by
  intro s q duty i shape hi acc amp
  refine exec_of_oscillate ?_
  simp only [List.mem_cons, Prod.mk.injEq, List.not_mem_nil, or_false] at hi
  obtain ⟨rfl, rfl⟩ | ⟨rfl, rfl⟩ | ⟨rfl, rfl⟩ | ⟨rfl, rfl⟩ := hi
  case inl => exact exec_srcTriangle s
  case inr.inl => exact exec_srcSawtooth s
  case inr.inr.inl => exact exec_srcSquare s
  case inr.inr.inr => exact exec_srcBreaker s

/-- Settles O18: as for the algebraic shapes, whatever the free functions are. -/
theorem numericOscillatorsSumTheirHarmonics : Obligations.NumericOscillatorsSumTheirHarmonics := by
  intro s i shape hi acc amp
  refine exec_of_oscillate ?_
  simp only [List.mem_cons, Prod.mk.injEq, List.not_mem_nil, or_false] at hi
  obtain ⟨rfl, rfl⟩ | ⟨rfl, rfl⟩ | ⟨rfl, rfl⟩ := hi
  case inl => exact exec_srcSine s
  case inr.inl => exact exec_srcTangent s
  case inr.inr => exact exec_srcWhistle s

/-- Settles O11: the loop of HarmonicSum is the recurrence, from the sum 0 and the power 1. -/
theorem harmonicSumAddsThePowersInOrder : Obligations.HarmonicSumAddsThePowersInOrder := by
  intro r h sig t hsig0 ht0 hsig ht
  have hsum := harmonicSumFrom_eq_of_recurrence hsig ht (h + 1) 0
  rw [hsig0, ht0, Nat.zero_add] at hsum
  exact hsum

/-- Settles O19: doubling a phase is exact, and past 1/4 the phase is a multiple of 2^-54, so the differences of the
pieces are multiples of 2^-53 in [-1, 1]. -/
theorem triangleAndSawtoothAreExactlyLinear : Obligations.TriangleAndSawtoothAreExactlyLinear := fun _ hp h0 h1 =>
  ⟨holds_shapeTriangle ⟨hp, rfl⟩ h0 h1, holds_shapeSawtooth ⟨hp, rfl⟩ h0 h1⟩

end Sys2Proof.Proofs.Oscillator
end

section
/-!
SUPPORT. The frequency controller (R127 to R131): each function of stage FREQ over the parameters it reads, and the
stage as one update of the state.
-/

namespace Sys2Proof.Machine

theorem afterFreq_eq (o : Config.PhaseOrder) : afterFreq o = if o = .sourceThenAdvance then 0x6 else 0x4 := by
  cases o <;> rfl

/-- FIR is the sample's time, wrapped at the effective repeat frequency (R93, R127). -/
theorem State.fir_eq (s : State) : s.fir = ffrac (fmul (fdiv (freal s.i.toNat) s.p[0]) s.repeatFreqEff) := rfl

/-- A jump applies strictly past its onset; at the onset it does not (R128). -/
theorem jump_eq (r onset amount f : F64) :
    jump r onset amount f =
      if flt (fdiv onset (freal 100)) r then fmul f (fadd (freal 1) (fdiv amount (freal 100))) else f := rfl

/-- The second jump acts on the outcome of the first, and that one on the swept frequency (R128). -/
theorem State.baseFreq_eq (s : State) (r : F64) :
    s.baseFreq r = jump r s.p[13] s.p[15]
      (jump r s.p[12] s.p[14] (fadd (fadd s.p[8] (fmul r s.p[9])) (fmul (fmul r r) s.p[10]))) := rfl

/-- The vibrato term is added to the frequency, not multiplied with it (R129). -/
theorem State.vibrato_eq (s : State) (f t : F64) :
    s.vibrato f t = fadd f (fsub (freal 1) (fmul s.p[6]
      (fsub (flit 1 2) (fmul (flit 1 2) (Config.sin (fmul (fmul (fmul (freal 2) fPI) t) s.p[7])))))) := rfl

/-- FREQ changes the frequency, the phase and the stage alone (R130). -/
theorem exec_freq (s : State) :
    exec .freq s = .next
      { s with
        f := s.currentFreq, phase := ffrac (fadd s.phase (fdiv s.currentFreq s.p[0]))
        stage := afterFreq s.inst.phaseOrder } := rfl

end Sys2Proof.Machine
end

section
/-!
PROOFS. The statement on the frequency controller.
-/

namespace Sys2Proof.Proofs.Frequency
open Sys2Proof.Machine

/-- Settles O23: the frequency is the vibrato of the base frequency, whose jumps act in order, and the stage that
follows is the one of the phase order. -/
theorem freqComputesTheFrequencyAndAdvancesThePhase : Obligations.FreqComputesTheFrequencyAndAdvancesThePhase := by
  intro s t r f0 f1 f2 vib f
  have hbase : s.baseFreq s.fir = f2 := by rw [s.baseFreq_eq, s.fir_eq, jump_eq, jump_eq]
  have hfreq : s.currentFreq = f := by rw [State.currentFreq, hbase, s.vibrato_eq, State.time, State.pSampleRate]
  rw [exec_freq, hfreq, afterFreq_eq]

end Sys2Proof.Proofs.Frequency
end

section
/-!
SUPPORT. Exact sums and products down to the bit pattern: a value's pattern is known from its number, and from its sign
where the number is 0. So the identities of R8's arithmetic with 0 and 1 hold as equations of patterns.
-/

namespace Sys2Proof.Machine

section
variable {a b x y z : F64} {u v : ℚ}

/-! ### A number and its pattern -/

/-- The sign bit is the sign of the number, unless that is 0. -/
theorem fsign_eq_neg (h0 : fmag x ≠ 0) : fsign x = decide (fscaled x < 0) := by
  unfold fscaled
  split
  · next hs =>
    rw [hs, eq_comm, decide_eq_true_eq]
    omega
  · next hs =>
    rw [Bool.not_eq_true] at hs
    rw [hs, eq_comm, decide_eq_false_iff_not]
    omega

/-- Only the number 0 has two patterns. -/
theorem Holds.unique (hx : Holds x v) (hy : Holds y v) (hs : v = 0 → fsign x = fsign y) : x = y := by
  obtain ⟨-, rfl⟩ := hx
  obtain ⟨-, hval⟩ := hy
  have hscaled : fscaled y = fscaled x := by
    have h : (fscaled y : ℚ) = fscaled x := by rw [← f64Value_mul_units, ← f64Value_mul_units, hval]
    exact_mod_cast h
  have hmag : fmag x = fmag y := by rw [← natAbs_fscaled, ← natAbs_fscaled, hscaled]
  refine f64_ext ?_ ((magUnits_strictMono 52).injective (by rwa [← fmag_eq, ← fmag_eq]))
  by_cases h0 : f64Value x = 0
  · exact hs h0
  · have hne := fmag_ne_zero h0
    rw [fsign_eq_neg hne, fsign_eq_neg (hmag ▸ hne), hscaled]

theorem holds_one : Holds (freal 1) 1 := ⟨ffinite_one, f64Value_one⟩

theorem holds_fzero : Holds fzero 0 := ⟨ffinite_fzero, f64Value_fzero⟩

theorem holds_negZero : Holds 0x8000000000000000 0 := by
  have hneg : fneg fzero = 0x8000000000000000 := by decide
  rw [← hneg, Holds, ffinite_fneg, f64Value_fneg, f64Value_fzero, neg_zero]
  exact ⟨ffinite_fzero, rfl⟩

theorem holds_half : Holds (flit 1 2) (1 / 2) :=
  holds_flit_of_grid (z := 2 ^ 52) (by norm_num) (by norm_num) (by norm_num) (by norm_num [abs_le])

theorem Holds.isBinary64 (hx : Holds x v) : IsBinary64 v := ⟨x, hx⟩

@[simp] theorem fsign_one : fsign (freal 1) = false := fsign_f64OfRatio _ _ _

@[simp] theorem fsign_fzero : fsign fzero = false := by decide

/-- A zero that is not -0.0 is +0.0. -/
theorem fsign_of_zero (hx : Holds x 0) (hne : x ≠ 0x8000000000000000) : fsign x = false := by
  by_contra hsign
  rw [Bool.not_eq_false] at hsign
  exact hne (hx.unique holds_negZero fun _ => by rw [hsign]; rfl)

theorem eq_finfOf_of_inf (hx : fisInf x = true) : x = finfOf (fsign x) :=
  f64_ext (fsign_finfOf _).symm (((fisInf_iff x).1 hx).trans (fbits_finfOf _).symm)

theorem fmag_of_inf (hx : fisInf x = true) : fmag x ≠ 0 := by
  rw [fmag_eq, ne_eq, magUnits_eq_zero_iff, (fisInf_iff x).1 hx]
  norm_num

theorem fisInf_of_not_finite (hx : ffinite x = false) (hnan : fisNaN x = false) : fisInf x = true :=
  ((ffinite_eq_false_iff x).1 hx).resolve_left (by simp [hnan])

/-! ### Exact sums and quotients -/

theorem Holds.fadd (ha : Holds a u) (hb : Holds b v) (huv : IsBinary64 (u + v)) : Holds (fadd a b) (u + v) := by
  obtain ⟨hfa, rfl⟩ := ha
  obtain ⟨hfb, rfl⟩ := hb
  exact (roundsTo_fadd hfa hfb).holds huv

theorem Holds.fdiv (ha : Holds a u) (hb : Holds b v) (hv : v ≠ 0) (huv : IsBinary64 (u / v)) :
    Holds (fdiv a b) (u / v) := by
  obtain ⟨hfa, rfl⟩ := ha
  obtain ⟨hfb, rfl⟩ := hb
  exact (roundsTo_fdiv hfa hfb hv).holds huv

/-- Zero times a finite value is a zero. -/
theorem Holds.zero_fmul (ha : Holds a 0) (hb : ffinite b = true) : Holds (Machine.fmul a b) 0 := by
  have h := ha.fmul ⟨hb, rfl⟩ (by rw [zero_mul]; exact holds_fzero.isBinary64)
  rwa [zero_mul] at h

/-- Adding a zero of either sign to a finite value keeps the number. -/
theorem Holds.fadd_zero (ha : Holds a v) (hz : Holds z 0) : Holds (Machine.fadd a z) v := by
  have h := ha.fadd hz (by rw [add_zero]; exact ha.isBinary64)
  rwa [add_zero] at h

/-- An exact zero sum is negative only if both operands are (R8). -/
theorem fsign_fadd_of_cancel (ha : Holds a v) (hb : Holds b (-v)) : fsign (fadd a b) = (fsign a && fsign b) := by
  obtain ⟨hfa, rfl⟩ := ha
  obtain ⟨hfb, hval⟩ := hb
  have hsum : fscaled a + fscaled b = 0 := by
    have h : (fscaled a : ℚ) + fscaled b = 0 := by
      rw [← f64Value_mul_units, ← f64Value_mul_units, hval]
      ring
    exact_mod_cast h
  simp [fadd, fisNaN_of_finite hfa, fisNaN_of_finite hfb, fisInf_of_finite hfa, fisInf_of_finite hfb, hsum]

theorem fadd_eq_fzero (ha : Holds a v) (hb : Holds b (-v)) (hs : (fsign a && fsign b) = false) :
    fadd a b = fzero := by
  have h := ha.fadd hb (by rw [add_neg_cancel]; exact holds_fzero.isBinary64)
  rw [add_neg_cancel] at h
  exact h.unique holds_fzero fun _ => by rw [fsign_fadd_of_cancel ha hb, hs, fsign_fzero]

/-- x - x is +0.0 for every finite x. -/
theorem fsub_self (hx : ffinite x = true) : fsub x x = fzero :=
  fadd_eq_fzero ⟨hx, rfl⟩ ⟨by rwa [ffinite_fneg], f64Value_fneg x⟩ (by simp)

/-! ### The identities with 0 and 1 -/

/-- A zero of either sign is neutral on the right of a sum, except for -0.0. -/
theorem fadd_zero_right (hx : fisNaN x = false) (hne : x ≠ 0x8000000000000000) (hz : Holds z 0) : fadd x z = x := by
  cases hfin : ffinite x
  case false =>
    simp [fadd, hx, fisInf_of_not_finite hfin hx, fisNaN_of_finite hz.1, fisInf_of_finite hz.1]
  case true =>
    have hval : Holds x (f64Value x) := ⟨hfin, rfl⟩
    refine (hval.fadd_zero hz).unique hval fun h0 => ?_
    rw [h0] at hval
    rw [fsign_fadd_of_cancel hval (by rwa [neg_zero]), fsign_of_zero hval hne, Bool.false_and]

theorem fadd_comm_of_finite (ha : ffinite a = true) (hb : fisNaN b = false) : fadd a b = fadd b a := by
  simp [fadd, fisNaN_of_finite ha, hb, fisInf_of_finite ha, add_comm, Bool.and_comm]

theorem fadd_zero_left (hx : fisNaN x = false) (hne : x ≠ 0x8000000000000000) : fadd fzero x = x :=
  (fadd_comm_of_finite ffinite_fzero hx).trans (fadd_zero_right hx hne holds_fzero)

/-- 1.0 is neutral on the right of a product, bit for bit: -0.0 and the infinities keep their pattern too. -/
theorem fmul_one (hx : fisNaN x = false) : fmul x (freal 1) = x := by
  have hone : fmag (freal 1) ≠ 0 := fmag_ne_zero (by rw [f64Value_one]; exact one_ne_zero)
  cases hfin : ffinite x
  case false =>
    have hinf := fisInf_of_not_finite hfin hx
    conv_rhs => rw [eq_finfOf_of_inf hinf]
    simp [fmul, hx, hinf, fisNaN_of_finite ffinite_one, fmag_of_inf hinf, hone]
  case true =>
    have hval : Holds x (f64Value x) := ⟨hfin, rfl⟩
    have hprod := hval.fmul holds_one (by rw [mul_one]; exact hval.isBinary64)
    rw [mul_one] at hprod
    refine hprod.unique hval fun _ => ?_
    rw [fmul_of_finite hfin ffinite_one, fsign_f64OfRatio, fsign_one, Bool.bne_false]

/-- The order of the factors matters only to the pattern of a NaN. -/
theorem fmul_comm_of_not_nan (h : fisNaN (fmul a b) = false) : fmul b a = fmul a b := by
  have hsign : (fsign b != fsign a) = (fsign a != fsign b) := bne_comm
  unfold fmul at h ⊢
  simp only [Bool.or_comm (fisNaN b), Bool.or_comm (fisInf b), Bool.or_comm (decide (fmag b = 0)), mul_comm (fmag b),
    hsign]
  simp only at h
  split_ifs at h ⊢ with hnan hinf hzero
  · rw [fisNaN_fnan] at h
    cases h
  · rw [fisNaN_fnan] at h
    cases h
  · rfl
  · rfl

theorem one_fmul (hx : fisNaN x = false) : fmul (freal 1) x = x := by
  have h := fmul_one hx
  rw [fmul_comm_of_not_nan (by rwa [h]), h]

end

end Sys2Proof.Machine
end

section
/-!
SUPPORT. The tremolo and the filters (R134 to R142): each stage as one update of the state, its coefficient over the
parameters it reads, and the gain and the recurrences at the coefficients the rules name.
-/

namespace Sys2Proof.Machine

/-! ### The stages -/

section
variable (s : State)

/-- TREMOLO changes the sample and the stage alone (R134). -/
theorem exec_tremolo : exec .tremolo s = .next { s with s := fmul s.s s.tremoloGain, stage := 0x7 } := rfl

/-- LPF's output is both the sample and the filter's memory (R137). -/
theorem exec_lpf : exec .lpf s = .next { s with lpfY := s.lpfOut, s := s.lpfOut, stage := 0x8 } := rfl

/-- HPF keeps the sample it found, and its output (R140). -/
theorem exec_hpf : exec .hpf s = .next { s with hpfX := s.s, hpfY := s.hpfOut, s := s.hpfOut, stage := 0x9 } := rfl

/-- The tremolo reads the time of the sample, not of the source's period (R134). -/
theorem State.tremoloGain_eq :
    s.tremoloGain =
      tremoloGainOf s.p[4]
        (Config.cos (fmul (fmul (fmul (freal 2) fPI) (fdiv (freal s.i.toNat) s.p[0])) s.p[5])) := rfl

/-- The cutoff sweeps with the fraction of the render, and is clamped before it is normalized (R135). -/
theorem State.wc_eq (b w : F64) :
    s.wc b w =
      fmul (fdiv (fclamp 0 (fdiv s.p[0] (freal 2))
        (fadd b (fmul (fdiv (freal s.i.toNat) (freal s.numSamples.toNat)) w))) s.p[0]) fPI := rfl

theorem State.lpfOut_eq : s.lpfOut = lpfRecurrence (lpfAlpha (s.wc s.p[21] s.p[22])) s.s s.lpfY := rfl

theorem State.hpfOut_eq : s.hpfOut = hpfRecurrence (hpfAlpha (s.wc s.p[23] s.p[24])) s.s s.hpfX s.hpfY := rfl

end

section
variable {c depth x y z : F64}

/-! ### The tremolo gain at its extremes (R134) -/

/-- Some value is at least half the overflow bound and yet more than 1/2 below it: 2^1023. -/
theorem exists_half_overflow :
    ∃ t, ffinite t = true ∧ (f64Overflow : ℝ) ≤ 2 * f64Value t ∧ (f64Value t : ℝ) + 1 / 2 < f64Overflow := by
  obtain ⟨hfin, hval⟩ := freal_exact (m := 2 ^ 53) (k := 970) le_rfl le_rfl
  have hp : (1 : ℝ) ≤ 2 ^ 970 := one_le_pow₀ one_le_two
  have hover : (f64Overflow : ℝ) = 2 ^ 54 * 2 ^ 970 - 2 ^ 970 := by rw [f64Overflow_cast, ← pow_add]
  have htop : (f64Value (freal (2 ^ 53 * 2 ^ 970)) : ℝ) = 2 ^ 53 * 2 ^ 970 := by
    rw [hval, Rat.cast_natCast, Nat.cast_mul, Nat.cast_pow, Nat.cast_pow, Nat.cast_ofNat]
  refine ⟨_, hfin, ?_⟩
  rw [htop, hover]
  generalize (2 : ℝ) ^ 970 = p at hp
  constructor <;> linarith

/-- A finite cosine, in [-1, 1] or not, gives a finite modulation. -/
theorem ffinite_tremoloModulation (hc : ffinite c = true) : ffinite (fadd (flit 1 2) (fmul (flit 1 2) c)) = true := by
  obtain ⟨hhalf, hhalfval⟩ := holds_half
  obtain ⟨t, ht, htwice, hroom⟩ := exists_half_overflow
  have hcabs := abs_lt.1 (abs_f64Value_lt hc)
  have hprod := roundsTo_fmul hhalf hc
  rw [hhalfval] at hprod
  obtain ⟨hfin, hlo, hhi⟩ := hprod.mem_interval (lo := fneg t) (by rwa [ffinite_fneg]) ht
    (by rw [f64Value_fneg]; push_cast; linarith) (by push_cast; linarith)
  have hlo' : -(f64Value t : ℝ) ≤ f64Value (fmul (flit 1 2) c) := by rw [f64Value_fneg] at hlo; exact_mod_cast hlo
  have hhi' : (f64Value (fmul (flit 1 2) c) : ℝ) ≤ f64Value t := by exact_mod_cast hhi
  have hbound : |((1 / 2 + f64Value (fmul (flit 1 2) c) : ℚ) : ℝ)| < f64Overflow := by
    push_cast
    exact abs_lt.2 ⟨by linarith, by linarith⟩
  have hsum := roundsTo_fadd hhalf hfin
  rw [hhalfval] at hsum
  exact (hsum.2.2 hbound).1

/-- A depth of either zero takes nothing from the gain, whatever the modulation. -/
theorem tremoloGainOf_zero (hdepth : Holds depth 0) (hc : ffinite c = true) : tremoloGainOf depth c = freal 1 := by
  have hratio : Holds (fdiv depth (freal 100)) 0 := by
    have h := hdepth.fdiv (holds_freal (n := 100) (by norm_num)) (by norm_num)
      (by rw [zero_div]; exact holds_fzero.isBinary64)
    rwa [zero_div] at h
  obtain ⟨hfin, hval⟩ := hratio.zero_fmul (ffinite_tremoloModulation hc)
  exact fadd_zero_right (fisNaN_of_finite ffinite_one) (by decide +kernel)
    ⟨by rwa [ffinite_fneg], by rw [f64Value_fneg, hval, neg_zero]⟩

/-- At depth 100 and cosine 1 the whole of the sample is taken, exactly. -/
theorem tremoloGainOf_full : tremoloGainOf (freal 100) (freal 1) = fzero := by
  have hundred : Holds (freal 100) 100 := holds_freal (by norm_num)
  have hratio : fdiv (freal 100) (freal 100) = freal 1 := by
    have h := hundred.fdiv hundred (by norm_num) (by rw [div_self (by norm_num)]; exact holds_one.isBinary64)
    rw [div_self (by norm_num)] at h
    exact h.unique holds_one fun h0 => absurd h0 one_ne_zero
  have hmodulation : fadd (flit 1 2) (flit 1 2) = freal 1 := by
    have h := holds_half.fadd holds_half (by rw [add_halves]; exact holds_one.isBinary64)
    rw [add_halves] at h
    exact h.unique holds_one fun h0 => absurd h0 one_ne_zero
  rw [tremoloGainOf, hratio, fmul_one (fisNaN_of_finite holds_half.1), hmodulation,
    fmul_one (fisNaN_of_finite ffinite_one), fsub_self ffinite_one]

/-! ### The recurrences at coefficient 1 (R142) -/

/-- At coefficient 1 the low-pass weighs its memory with an exact +0.0. -/
theorem lpfRecurrence_one (hx : fisNaN x = false) (y : F64) :
    lpfRecurrence (freal 1) x y = fadd x (fmul fzero y) := by
  rw [lpfRecurrence, one_fmul hx, fsub_self ffinite_one]

/-- At coefficient 1, memories that agree leave an exact +0.0 for the high-pass to add its input to. -/
theorem hpfRecurrence_one (hx : fisNaN x = false) (hy : ffinite y = true) :
    hpfRecurrence (freal 1) x y y = fadd fzero x := by
  rw [hpfRecurrence, fsub_self hy, one_fmul (fisNaN_fadd_of_finite ffinite_fzero hx)]

theorem lpfRecurrence_one_negZero (hy : ffinite y = true) (hs : fsign y = false) :
    lpfRecurrence (freal 1) 0x8000000000000000 y = fzero := by
  rw [lpfRecurrence_one (fisNaN_of_finite holds_negZero.1)]
  refine fadd_eq_fzero holds_negZero (by rw [neg_zero]; exact holds_fzero.zero_fmul hy) ?_
  rw [fmul_of_finite ffinite_fzero hy, fsign_f64OfRatio, hs, fsign_fzero, bne_self_eq_false, Bool.and_false]

theorem hpfRecurrence_one_negZero (hy : ffinite y = true) :
    hpfRecurrence (freal 1) 0x8000000000000000 y y = fzero := by
  rw [hpfRecurrence_one (fisNaN_of_finite holds_negZero.1) hy]
  exact fadd_eq_fzero holds_fzero (by rw [neg_zero]; exact holds_negZero) (by rw [fsign_fzero, Bool.false_and])

end

end Sys2Proof.Machine
end

section
/-!
PROOFS. The statements on the tremolo and the filters.
-/

namespace Sys2Proof.Proofs.Filter
open Sys2Proof.Machine

/-- Settles O26: a zero depth takes an exact zero from 1, a product with 1 keeps number and sign, and at the other end
the gain is 1 - 1. -/
theorem tremoloGainAtItsExtremes : Obligations.TremoloGainAtItsExtremes :=
  ⟨fun _ _ hfin hval hc => tremoloGainOf_zero ⟨hfin, hval⟩ hc, fun _ hx => fmul_one hx, tremoloGainOf_full⟩

/-- Settles O30: at coefficient 1 both recurrences add a zero to the input, which only -0.0 can feel. -/
theorem filtersPassTheSignalAtCoefficientOne : Obligations.FiltersPassTheSignalAtCoefficientOne := by
  refine ⟨fun x y hx hne hy => ⟨?lpf, ?hpf⟩, fun y hy =>
    ⟨lpfRecurrence_one_negZero hy, hpfRecurrence_one_negZero hy⟩⟩
  case lpf => rw [lpfRecurrence_one hx, fadd_zero_right hx hne (holds_fzero.zero_fmul hy)]
  case hpf => rw [hpfRecurrence_one hx hy, fadd_zero_left hx hne]

/-- Settles O25: the gain is the one of R134 over the parameters and the sample's time. -/
theorem tremoloScalesTheSample : Obligations.TremoloScalesTheSample := by
  intro s t c
  rw [exec_tremolo, s.tremoloGain_eq, tremoloGainOf]

/-- Settles O28: the coefficient is that of the swept and clamped cutoff, and 1 where its cosine is not positive. -/
theorem lpfFiltersWithThisSamplesCoefficient : Obligations.LpfFiltersWithThisSamplesCoefficient := by
  intro s fraction cutoff c a al y
  have hal : lpfAlpha (s.wc s.p[21] s.p[22]) = al := by rw [s.wc_eq, lpfAlpha]; rfl
  have hy : s.lpfOut = y := by rw [s.lpfOut_eq, hal, lpfRecurrence]
  rw [exec_lpf, hy]

/-- Settles O29: as for LPF, with the coefficient 0 where the cosine is not positive. -/
theorem hpfFiltersWithThisSamplesCoefficient : Obligations.HpfFiltersWithThisSamplesCoefficient := by
  intro s fraction cutoff wc al y
  have hal : hpfAlpha (s.wc s.p[23] s.p[24]) = al := by rw [s.wc_eq, hpfAlpha]; rfl
  have hy : s.hpfOut = y := by rw [s.hpfOut_eq, hal, hpfRecurrence]
  rw [exec_hpf, hy]

end Sys2Proof.Proofs.Filter
end

section
/-!
SUPPORT. The envelope and the compressor (R144 to R148): each stage as one update of the state, the gain by its region,
and the sample's time, which is never below 0 and is 0 at index 0.
-/

namespace Sys2Proof.Machine

/-! ### The stages -/

section
variable (s : State)

/-- ENVELOPE changes the sample and the stage alone (R144). -/
theorem exec_envelope : exec .envelope s = .next { s with s := s.enveloped, stage := 0xA } := rfl

/-- COMPRESS changes the sample and the stage alone (R148). -/
theorem exec_compress :
    exec .compress s = .next { s with s := fmul (fsgn s.s) (Config.pow (fabs s.s) s.p[25]), stage := 0xB } := rfl

theorem State.time_eq : s.time = fdiv (freal s.i.toNat) s.p[0] := rfl

theorem State.enveloped_eq :
    s.enveloped = if feq (s.envGain s.time) (freal 1) then s.s else fmul s.s (s.envGain s.time) := rfl

/-- The gain over the parameters it reads (R144). -/
theorem State.envGain_eq (t : F64) :
    s.envGain t =
      if flt t s.p[1] then fdiv t s.p[1]
      else if flt (fadd s.p[1] s.p[2]) t = true ∧ feq s.p[3] fzero = false then
        fsub (freal 1) (fdiv (fsub (fsub t s.p[1]) s.p[2]) s.p[3])
      else freal 1 := by
  simp only [State.envGain, State.pAttack, State.pSustain, State.pDecay, Bool.and_eq_true, Bool.not_eq_true']

end

section
variable {a b : F64} {s : State}

/-! ### Signs and zeros -/

theorem fsgn_eq (x : F64) :
    fsgn x = if flt 0 x then freal 1 else if flt x 0 then fneg (freal 1) else 0 := rfl

theorem fabs_eq (x : F64) : fabs x = x &&& 0x7FFFFFFFFFFFFFFF := rfl

/-- A zero over a finite value other than 0 is a zero. -/
theorem Holds.zero_fdiv (ha : Holds a 0) (hb : ffinite b = true) (h0 : f64Value b ≠ 0) :
    Holds (Machine.fdiv a b) 0 := by
  have h := ha.fdiv ⟨hb, rfl⟩ h0 (by rw [zero_div]; exact holds_fzero.isBinary64)
  rwa [zero_div] at h

/-- A finite value times a zero is a zero. -/
theorem Holds.fmul_zero (hb : Holds b 0) (ha : ffinite a = true) : Holds (Machine.fmul a b) 0 := by
  have h := Holds.fmul (v := 0) ⟨ha, rfl⟩ hb (by rw [mul_zero]; exact holds_fzero.isBinary64)
  rwa [mul_zero] at h

/-- No value with the sign bit clear is below a zero of either sign, an infinity and a NaN included. -/
theorem flt_eq_false_of_fsign (ha : fsign a = false) (hb : Holds b 0) : flt a b = false := by
  have hnonneg : ¬ forder a < forder b := by
    rw [forder_lt_iff, ← f64Value_lt_iff, hb.2, not_lt, f64Value_nonneg_iff, fscaled, ha]
    exact Int.natCast_nonneg _
  simp [flt, hnonneg]

/-! ### The sample's time -/

theorem State.holds_time_zero (hrate : ffinite s.p[0] = true) (hpos : 0 < f64Value s.p[0]) (hi : s.i = 0) :
    Holds s.time 0 := by
  have hindex : Holds (freal s.i.toNat) 0 := by rw [hi]; exact holds_freal (n := 0) (Nat.zero_le _)
  exact hindex.zero_fdiv hrate hpos.ne'

/-- A quotient that overflows keeps its sign too, so this needs no bound on the index. -/
theorem State.fsign_time (hrate : ffinite s.p[0] = true) (hpos : 0 < f64Value s.p[0]) : fsign s.time = false := by
  have hmag := fmag_ne_zero hpos.ne'
  have hindex : fsign (freal s.i.toNat) = false := fsign_f64OfRatio _ _ _
  rw [s.time_eq, fdiv_of_finite (freal_word s.i).1 hrate hmag, fsign_f64OfRatio, hindex,
    fsign_eq_false_of_nonneg hpos.le hmag, bne_self_eq_false]

/-! ### The envelope at its boundaries (R145, R147) -/

/-- A gain of 0 silences a finite sample: it is not the gain 1 that leaves it. -/
theorem State.enveloped_of_gain_zero (hg : Holds (s.envGain s.time) 0) (hs : ffinite s.s = true) :
    Holds s.enveloped 0 := by
  have hne : ¬ feq (s.envGain s.time) (freal 1) = true := by
    rw [feq_iff hg.1 ffinite_one, hg.2, f64Value_one]
    exact zero_ne_one
  rw [s.enveloped_eq, if_neg hne]
  exact hg.fmul_zero hs

theorem State.enveloped_of_gain_one (hg : s.envGain s.time = freal 1) : s.enveloped = s.s := by
  rw [s.enveloped_eq, hg, if_pos ((feq_iff ffinite_one ffinite_one).2 rfl)]

/-- The attack ramp starts at 0. -/
theorem State.envGain_attack_start {t : F64} (ht : Holds t 0) (hfin : ffinite s.p[1] = true)
    (hpos : 0 < f64Value s.p[1]) : Holds (s.envGain t) 0 := by
  have hbefore : flt t s.p[1] = true := (flt_iff ht.1 hfin).2 (by rwa [ht.2])
  rw [s.envGain_eq, if_pos hbefore]
  exact ht.zero_fdiv hfin hpos.ne'

/-- With no attack and no decay, the guards leave the gain 1 at every time of the render (R145). -/
theorem State.envGain_without_ramps {t : F64} (ht : fsign t = false) (hattack : Holds s.p[1] 0)
    (hdecay : Holds s.p[3] 0) : s.envGain t = freal 1 := by
  have hafter : ¬ flt t s.p[1] = true := by simp [flt_eq_false_of_fsign ht hattack]
  have hnodecay : feq s.p[3] fzero = true := by rw [feq_iff hdecay.1 ffinite_fzero, hdecay.2, f64Value_fzero]
  rw [s.envGain_eq, if_neg hafter, if_neg (by simp [hnodecay])]

end

end Sys2Proof.Machine
end

section
/-!
PROOFS. The statements on the envelope and the compressor.
-/

namespace Sys2Proof.Proofs.Envelope
open Sys2Proof.Machine

/-- Settles O32: at index 0 the time is a zero, and so is the ramp's gain; without ramps the guards give the gain 1. -/
theorem envelopeBoundaries : Obligations.EnvelopeBoundaries := by
  refine ⟨fun s hrate hratepos hattack hattackpos hi hs => ?start,
    fun s hrate hratepos hattack ha0 hdecay hd0 => ?unramped⟩
  case start =>
    have ht := State.holds_time_zero hrate hratepos hi
    exact ⟨_, exec_envelope s, State.enveloped_of_gain_zero (State.envGain_attack_start ht hattack hattackpos) hs⟩
  case unramped =>
    have ht := State.fsign_time hrate hratepos
    have hgain := State.envGain_without_ramps ht ⟨hattack, ha0⟩ ⟨hdecay, hd0⟩
    rw [exec_envelope, State.enveloped_of_gain_one hgain]

/-- Settles O31: the gain is the one of R144 over the parameters and the sample's time. -/
theorem envelopeAppliesItsGain : Obligations.EnvelopeAppliesItsGain := by
  intro s t g
  have hgain : s.envGain s.time = g := s.envGain_eq t
  rw [exec_envelope, s.enveloped_eq, hgain]

/-- Settles O33: the sign of R15 and the cleared sign bit of R8 are those the statement writes out. -/
theorem compressIsASignPreservingPower : Obligations.CompressIsASignPreservingPower := by
  intro s sgn
  rw [exec_compress, fsgn_eq, fabs_eq]

end Sys2Proof.Proofs.Envelope
end

section
/-!
PROOFS. The statement on power-on, seen through the bus.
-/

namespace Sys2Proof.Proofs.PowerOn
open Sys2Proof.Machine

/-- R178, R24: every parameter is 0 at power-on. -/
theorem reset_param (k : Fin 28) : State.reset.p[k] = 0 := Vector.getElem_replicate k.isLt

/-- R178, R23: no flag is set at power-on, and the stage is IDLE. -/
theorem reset_statusWord : State.reset.statusWord = 0 := rfl

/-- Settles O5: the bus answers with the registers, as in every state, and these hold their power-on values. -/
theorem resetRegistersReadTheirResetValues : Obligations.ResetRegistersReadTheirResetValues := by
  intro a v hav
  obtain ⟨hregisters, hparams⟩ := MachineState.registersReadAtTheirOffsets State.reset
  rcases List.mem_append.1 hav with hregister | hparam
  · refine hregisters a v ?_
    rw [reset_statusWord]
    exact hregister
  · obtain ⟨k, hk, heq⟩ := List.mem_map.1 hparam
    obtain ⟨rfl, rfl⟩ := Prod.mk.inj heq
    have hread := hparams ⟨k, List.mem_range.1 hk⟩
    rwa [reset_param] at hread

end Sys2Proof.Proofs.PowerOn
end
